-- ==== Sys2Proof/Word.lean ====
section
/-! DEFINITION. The word types of the machine and nothing more (00_scope.md R7, R9). -/

namespace Sys2Proof

/-- An 8-bit value, the spec's `u8`: A, X, Y, SP, P, opcode and operand bytes, memory bytes (R7, R9). -/
abbrev Byte := BitVec 8

/-- A 16-bit value, the spec's `u16`: PC and every bus address (R7, R9). -/
abbrev Addr := BitVec 16

end Sys2Proof
end

