-- ==== Sys2Proof/Config.lean ====
section
/-! DEFINITION. What an implementation fixes, and the values the spec leaves open (00_scope.md R8).
The opaque constants have no body: no proof can see their values, so a theorem about them holds for every value. -/

namespace Sys2Proof

/-- The build parameters of the core (R8) that are not the bus. They are data in `State`, and no step changes them. -/
structure Config where
  /-- `DECIMAL_MODE` (R4): when true, ADC and SBC use decimal arithmetic while D = 1. -/
  decimalMode : Bool
  deriving DecidableEq, Repr

/-- The spec's default: `DECIMAL_MODE = false` (R4, R8, D9). -/
def Config.reference : Config := { decimalMode := false }

/-- FREE VALUE (U1, D6; log entry 9). The cycles of an undocumented XXX opcode beyond 2. -/
opaque Config.undocExtra : Byte → Fin 7

/-- `UNDOC_CYCLES(op)`, an OPEN parameter in 2..=8 (R8, R91). -/
def Config.undocCycles (op : Byte) : Nat := 2 + (Config.undocExtra op).val

/-- FREE VALUE (U4, D35; log entry 7). `NES_HIGH_MAP`: what NESBus returns at 0x8000..=0xFFFF (R56). -/
opaque Config.nesHighMap : Addr → Byte

/-- FREE VALUE (U3, D16; log entry 8). What a device answers to the read that is bus transaction number `t`
at address `a` (R57). The number makes every read free, the same address read twice included. -/
opaque Config.deviceByte (t : Nat) (a : Addr) : Byte

/-- FREE VALUE (U11; log entry 8). Whether a device takes the write that is bus transaction number `t` at `a` (R57). -/
opaque Config.deviceTook (t : Nat) (a : Addr) : Bool

end Sys2Proof
end

