-- ==== Sys2Proof/Syntax.lean ====
section
/-! DEFINITION. The instruction set as syntax: addressing modes, operands, operations, descriptors, instructions
(30_encoding.md R81 to R92). One constructor of `Instr` per operation of the opcode table; the rows of one mnemonic
differ in their addressing mode, which is the constructor's operand. -/

namespace Sys2Proof

/-- The 13 addressing modes (R86; ACC is the 13th by D1, DEDUCED, log entry 13). -/
inductive Mode where
  | imp | acc | imm | zp0 | zpx | zpy | rel | abs | abx | aby | ind | izx | izy
  deriving DecidableEq, Repr

/-- An operand: its addressing mode and its operand bytes, a 16-bit operand as one word (R82, R94). -/
inductive Operand where
  /-- No operand (R121). -/
  | imp
  /-- The accumulator, as in `ASL A` (R122). -/
  | acc
  /-- The literal in the byte after the opcode, as in `LDA #$00` (R123). -/
  | imm (d : Byte)
  /-- A zero-page address, as in `LDA $10` (R124). -/
  | zp0 (d : Byte)
  /-- A zero-page address indexed by X, as in `LDA $10,X` (R125). -/
  | zpx (d : Byte)
  /-- A zero-page address indexed by Y, as in `LDX $10,Y` (R126). -/
  | zpy (d : Byte)
  /-- A signed displacement (R127). -/
  | rel (o : Byte)
  /-- An absolute address, as in `JMP $8000` (R128). -/
  | abs (w : Addr)
  /-- An absolute address indexed by X (R129). -/
  | abx (w : Addr)
  /-- An absolute address indexed by Y (R130). -/
  | aby (w : Addr)
  /-- A pointer in memory, as in `JMP ($12FF)` (R131). -/
  | ind (w : Addr)
  /-- A zero-page pointer indexed before it is read, as in `LDA ($20,X)` (R132). -/
  | izx (d : Byte)
  /-- A zero-page pointer indexed after it is read, as in `STA ($20),Y` (R133). -/
  | izy (d : Byte)
  deriving DecidableEq, Repr

/-- The 57 operation identifiers: the 56 documented operations and XXX, "do nothing" (R85). -/
inductive Operation where
  | adc | and | asl | bcc | bcs | beq | bit | bmi | bne | bpl | brk | bvc | bvs | clc
  | cld | cli | clv | cmp | cpx | cpy | dec | dex | dey | eor | inc | inx | iny | jmp
  | jsr | lda | ldx | ldy | lsr | nop | ora | pha | php | pla | plp | rol | ror | rti
  | rts | sbc | sec | sed | sei | sta | stx | sty | tax | tay | tsx | txa | txs | tya
  | xxx
  deriving DecidableEq, Repr

/-- An entry of the decode table (R84). -/
structure Descriptor where
  /-- Three characters; `???` marks an undocumented opcode (R95). -/
  mnemonic : String
  /-- One of the 57 operations. -/
  operation : Operation
  /-- One of the 13 modes. -/
  mode : Mode
  /-- 2..=8 (R7). -/
  baseCycles : Nat
  deriving DecidableEq, Repr

/-- An OperandRef: "operand lives at a memory address", or "operand IS the accumulator" (10_state.md R39).
It "carries an address, not a cached pointer". -/
inductive OperandRef where
  | mem (a : Addr)
  | regA
  deriving DecidableEq, Repr

/-- The instructions. A constructor without an argument is a one-byte instruction of mode IMP. -/
inductive Instr where
  /-- add with carry (44_logic_arith.md R167) -/
  | adc (o : Operand)
  /-- bitwise and (R164) -/
  | and (o : Operand)
  /-- arithmetic shift left (45_shift_rotate.md R176) -/
  | asl (o : Operand)
  /-- branch if carry clear (47_jump_branch.md R206) -/
  | bcc (o : Operand)
  /-- branch if carry set (R207) -/
  | bcs (o : Operand)
  /-- branch if equal (R209) -/
  | beq (o : Operand)
  /-- test bits (46_compare_bit_incdec.md R187) -/
  | bit (o : Operand)
  /-- branch if minus (R203) -/
  | bmi (o : Operand)
  /-- branch if not equal (R208) -/
  | bne (o : Operand)
  /-- branch if plus (R202) -/
  | bpl (o : Operand)
  /-- software interrupt (49_system.md R226) -/
  | brk
  /-- branch if overflow clear (R204) -/
  | bvc (o : Operand)
  /-- branch if overflow set (R205) -/
  | bvs (o : Operand)
  /-- clear carry (48_flags.md R216) -/
  | clc
  /-- clear decimal (R220) -/
  | cld
  /-- clear interrupt disable (R218) -/
  | cli
  /-- clear overflow (R222) -/
  | clv
  /-- compare accumulator (R184) -/
  | cmp (o : Operand)
  /-- compare X (R185) -/
  | cpx (o : Operand)
  /-- compare Y (R186) -/
  | cpy (o : Operand)
  /-- decrement memory (R189) -/
  | dec (o : Operand)
  /-- decrement X (R192) -/
  | dex
  /-- decrement Y (R193) -/
  | dey
  /-- bitwise exclusive or (R166) -/
  | eor (o : Operand)
  /-- increment memory (R188) -/
  | inc (o : Operand)
  /-- increment X (R190) -/
  | inx
  /-- increment Y (R191) -/
  | iny
  /-- jump (R197) -/
  | jmp (o : Operand)
  /-- jump to subroutine (R198) -/
  | jsr (o : Operand)
  /-- load accumulator (42_load_store_transfer.md R141) -/
  | lda (o : Operand)
  /-- load X (R142) -/
  | ldx (o : Operand)
  /-- load Y (R143) -/
  | ldy (o : Operand)
  /-- logical shift right (R177) -/
  | lsr (o : Operand)
  /-- no operation (R227) -/
  | nop
  /-- bitwise or (R165) -/
  | ora (o : Operand)
  /-- push accumulator (43_stack.md R156) -/
  | pha
  /-- push processor status (R157) -/
  | php
  /-- pull accumulator (R158) -/
  | pla
  /-- pull processor status (R159) -/
  | plp
  /-- rotate left (R178) -/
  | rol (o : Operand)
  /-- rotate right (R179) -/
  | ror (o : Operand)
  /-- return from interrupt (R200) -/
  | rti
  /-- return from subroutine (R199) -/
  | rts
  /-- subtract with borrow (R168) -/
  | sbc (o : Operand)
  /-- set carry (R217) -/
  | sec
  /-- set decimal (R221) -/
  | sed
  /-- set interrupt disable (R219) -/
  | sei
  /-- store accumulator (R144) -/
  | sta (o : Operand)
  /-- store X (R145) -/
  | stx (o : Operand)
  /-- store Y (R146) -/
  | sty (o : Operand)
  /-- transfer A to X (R147) -/
  | tax
  /-- transfer A to Y (R148) -/
  | tay
  /-- transfer SP to X (R149) -/
  | tsx
  /-- transfer X to A (R150) -/
  | txa
  /-- transfer X to SP (R152) -/
  | txs
  /-- transfer Y to A (R151) -/
  | tya
  /-- opcode 0xEB, the undocumented second opcode of SBC immediate (R90, R169) -/
  | sbcEB (o : Operand)
  /-- one of the 104 undocumented do-nothing opcodes (R91, R228) -/
  | xxx (op : Byte)
  deriving DecidableEq, Repr

end Sys2Proof
end

