-- ==== Sys2Proof/WellFormed.lean ====
section
/-! DEFINITION. Which terms of `Instr` are instructions: the modes each operation has, as the "Operands" lines of
42_load_store_transfer.md to 49_system.md give them (R141 to R228), and the undocumented opcodes (30_encoding.md R90, R91).
Every other term stands for no opcode. -/

namespace Sys2Proof

/-- The addressing mode of an operand (R86). -/
def Operand.mode : Operand → Mode
  | .imp => .imp | .acc => .acc | .imm _ => .imm | .zp0 _ => .zp0 | .zpx _ => .zpx | .zpy _ => .zpy | .rel _ => .rel
  | .abs _ => .abs | .abx _ => .abx | .aby _ => .aby | .ind _ => .ind | .izx _ => .izx | .izy _ => .izy

/-- The modes of LDA, AND, ORA, EOR, ADC, SBC and CMP (R141, 44_logic_arith.md, R184). -/
def modesRead : List Mode := [.imm, .zp0, .zpx, .abs, .abx, .aby, .izx, .izy]

/-- The modes of STA (R144). -/
def modesStoreA : List Mode := [.zp0, .zpx, .abs, .abx, .aby, .izx, .izy]

/-- The modes of ASL, LSR, ROL and ROR (45_shift_rotate.md). -/
def modesShift : List Mode := [.acc, .zp0, .zpx, .abs, .abx]

/-- The modes of INC and DEC (R188, R189). -/
def modesIncDec : List Mode := [.zp0, .zpx, .abs, .abx]

/-- The 104 opcodes that are neither documented nor 0xEB (R91). -/
def undocumented : List Byte :=
  [0x02, 0x03, 0x04, 0x07, 0x0B, 0x0C, 0x0F, 0x12, 0x13, 0x14, 0x17, 0x1A, 0x1B]
  ++ [0x1C, 0x1F, 0x22, 0x23, 0x27, 0x2B, 0x2F, 0x32, 0x33, 0x34, 0x37, 0x3A, 0x3B]
  ++ [0x3C, 0x3F, 0x42, 0x43, 0x44, 0x47, 0x4B, 0x4F, 0x52, 0x53, 0x54, 0x57, 0x5A]
  ++ [0x5B, 0x5C, 0x5F, 0x62, 0x63, 0x64, 0x67, 0x6B, 0x6F, 0x72, 0x73, 0x74, 0x77]
  ++ [0x7A, 0x7B, 0x7C, 0x7F, 0x80, 0x82, 0x83, 0x87, 0x89, 0x8B, 0x8F, 0x92, 0x93]
  ++ [0x97, 0x9B, 0x9C, 0x9E, 0x9F, 0xA3, 0xA7, 0xAB, 0xAF, 0xB2, 0xB3, 0xB7, 0xBB]
  ++ [0xBF, 0xC2, 0xC3, 0xC7, 0xCB, 0xCF, 0xD2, 0xD3, 0xD4, 0xD7, 0xDA, 0xDB, 0xDC]
  ++ [0xDF, 0xE2, 0xE3, 0xE7, 0xEF, 0xF2, 0xF3, 0xF4, 0xF7, 0xFA, 0xFB, 0xFC, 0xFF]

/-- `i` is an instruction of the opcode table: its operand has a mode its operation has, and an XXX opcode is one of
the 104 of R91. -/
def Instr.wf : Instr → Bool
  | .adc o | .and o | .cmp o | .eor o | .lda o | .ora o
  | .sbc o => modesRead.contains o.mode
  | .asl o | .lsr o | .rol o | .ror o => modesShift.contains o.mode
  | .bcc o | .bcs o | .beq o | .bmi o | .bne o | .bpl o
  | .bvc o | .bvs o => [Mode.rel].contains o.mode
  | .bit o => [Mode.zp0, .abs].contains o.mode
  | .cpx o | .cpy o => [Mode.imm, .zp0, .abs].contains o.mode
  | .dec o | .inc o => modesIncDec.contains o.mode
  | .jmp o => [Mode.abs, .ind].contains o.mode
  | .jsr o => [Mode.abs].contains o.mode
  | .ldx o => [Mode.imm, .zp0, .zpy, .abs, .aby].contains o.mode
  | .ldy o => [Mode.imm, .zp0, .zpx, .abs, .abx].contains o.mode
  | .sta o => modesStoreA.contains o.mode
  | .stx o => [Mode.zp0, .zpy, .abs].contains o.mode
  | .sty o => [Mode.zp0, .zpx, .abs].contains o.mode
  | .sbcEB o => o.mode == .imm
  | .xxx op => undocumented.contains op
  | .brk | .clc | .cld | .cli | .clv | .dex | .dey | .inx | .iny
  | .nop | .pha | .php | .pla | .plp | .rti | .rts | .sec | .sed
  | .sei | .tax | .tay | .tsx | .txa | .txs | .tya => true

end Sys2Proof
end

