-- ==== Sys2Proof/Decode.lean ====
section
/-! DEFINITION. The decode table, the decoder and the encoder (30_encoding.md). `opcodeMap` is transcribed from the
map of R87 and `opcodeFor` from the per-mnemonic listing of R88; the round trip holds the two against each other.
The map, the modes and the base cycles are the spec's choices D24, D25 (PRESUMED, log entry 11). -/

namespace Sys2Proof

/-! ## Bytes and words (00_scope.md R9) -/

/-- The low byte of a 16-bit word. -/
def lo (w : Addr) : Byte := w.setWidth 8

/-- The high byte of a 16-bit word. -/
def hi (w : Addr) : Byte := (w >>> 8).setWidth 8

/-- `w16(h, l) = h * 256 + l`: little-endian assembly of a word from its two bytes (R58). -/
def w16 (h l : Byte) : Addr := h ++ l

/-- `zext_16`: a zero-page address; "High byte is 0" (R94, R124). -/
def zext16 (d : Byte) : Addr := d.setWidth 16

/-- `sext_16`: the 16-bit two's-complement extension of a displacement (R9, R127). -/
def sext16 (o : Byte) : Addr := o.signExtend 16

/-! ## The decode table (R84, R87) -/

/-- The operation's own three letters. -/
def Operation.name : Operation → String
  | .adc => "ADC" | .and => "AND" | .asl => "ASL" | .bcc => "BCC"
  | .bcs => "BCS" | .beq => "BEQ" | .bit => "BIT" | .bmi => "BMI"
  | .bne => "BNE" | .bpl => "BPL" | .brk => "BRK" | .bvc => "BVC"
  | .bvs => "BVS" | .clc => "CLC" | .cld => "CLD" | .cli => "CLI"
  | .clv => "CLV" | .cmp => "CMP" | .cpx => "CPX" | .cpy => "CPY"
  | .dec => "DEC" | .dex => "DEX" | .dey => "DEY" | .eor => "EOR"
  | .inc => "INC" | .inx => "INX" | .iny => "INY" | .jmp => "JMP"
  | .jsr => "JSR" | .lda => "LDA" | .ldx => "LDX" | .ldy => "LDY"
  | .lsr => "LSR" | .nop => "NOP" | .ora => "ORA" | .pha => "PHA"
  | .php => "PHP" | .pla => "PLA" | .plp => "PLP" | .rol => "ROL"
  | .ror => "ROR" | .rti => "RTI" | .rts => "RTS" | .sbc => "SBC"
  | .sec => "SEC" | .sed => "SED" | .sei => "SEI" | .sta => "STA"
  | .stx => "STX" | .sty => "STY" | .tax => "TAX" | .tay => "TAY"
  | .tsx => "TSX" | .txa => "TXA" | .txs => "TXS" | .tya => "TYA"
  | .xxx => "???"

/-- A documented entry of the table. -/
def documented (op : Operation) (m : Mode) (cycles : Nat) : Descriptor :=
  { mnemonic := op.name, operation := op, mode := m, baseCycles := cycles }

/-- The entry of an XXX opcode: mnemonic `???`, mode IMP, `UNDOC_CYCLES` base cycles (R91, D5, D6). -/
def undocEntry (op : Byte) : Descriptor :=
  { mnemonic := "???", operation := .xxx, mode := .imp, baseCycles := Config.undocCycles op }

/-- The entry of 0xEB: mnemonic `???`, operation SBC, mode IMM, 2 base cycles (R90, D7). -/
def entryEB : Descriptor := { mnemonic := "???", operation := .sbc, mode := .imm, baseCycles := 2 }

/-- Row 0x of the map of R87. -/
def mapRow0 : List Descriptor :=
  [documented .brk .imp 7, documented .ora .izx 6, undocEntry 0x02, undocEntry 0x03,
   undocEntry 0x04, documented .ora .zp0 3, documented .asl .zp0 5, undocEntry 0x07,
   documented .php .imp 3, documented .ora .imm 2, documented .asl .acc 2, undocEntry 0x0B,
   undocEntry 0x0C, documented .ora .abs 4, documented .asl .abs 6, undocEntry 0x0F]

/-- Row 1x of the map of R87. -/
def mapRow1 : List Descriptor :=
  [documented .bpl .rel 2, documented .ora .izy 5, undocEntry 0x12, undocEntry 0x13,
   undocEntry 0x14, documented .ora .zpx 4, documented .asl .zpx 6, undocEntry 0x17,
   documented .clc .imp 2, documented .ora .aby 4, undocEntry 0x1A, undocEntry 0x1B,
   undocEntry 0x1C, documented .ora .abx 4, documented .asl .abx 7, undocEntry 0x1F]

/-- Row 2x of the map of R87. -/
def mapRow2 : List Descriptor :=
  [documented .jsr .abs 6, documented .and .izx 6, undocEntry 0x22, undocEntry 0x23,
   documented .bit .zp0 3, documented .and .zp0 3, documented .rol .zp0 5, undocEntry 0x27,
   documented .plp .imp 4, documented .and .imm 2, documented .rol .acc 2, undocEntry 0x2B,
   documented .bit .abs 4, documented .and .abs 4, documented .rol .abs 6, undocEntry 0x2F]

/-- Row 3x of the map of R87. -/
def mapRow3 : List Descriptor :=
  [documented .bmi .rel 2, documented .and .izy 5, undocEntry 0x32, undocEntry 0x33,
   undocEntry 0x34, documented .and .zpx 4, documented .rol .zpx 6, undocEntry 0x37,
   documented .sec .imp 2, documented .and .aby 4, undocEntry 0x3A, undocEntry 0x3B,
   undocEntry 0x3C, documented .and .abx 4, documented .rol .abx 7, undocEntry 0x3F]

/-- Row 4x of the map of R87. -/
def mapRow4 : List Descriptor :=
  [documented .rti .imp 6, documented .eor .izx 6, undocEntry 0x42, undocEntry 0x43,
   undocEntry 0x44, documented .eor .zp0 3, documented .lsr .zp0 5, undocEntry 0x47,
   documented .pha .imp 3, documented .eor .imm 2, documented .lsr .acc 2, undocEntry 0x4B,
   documented .jmp .abs 3, documented .eor .abs 4, documented .lsr .abs 6, undocEntry 0x4F]

/-- Row 5x of the map of R87. -/
def mapRow5 : List Descriptor :=
  [documented .bvc .rel 2, documented .eor .izy 5, undocEntry 0x52, undocEntry 0x53,
   undocEntry 0x54, documented .eor .zpx 4, documented .lsr .zpx 6, undocEntry 0x57,
   documented .cli .imp 2, documented .eor .aby 4, undocEntry 0x5A, undocEntry 0x5B,
   undocEntry 0x5C, documented .eor .abx 4, documented .lsr .abx 7, undocEntry 0x5F]

/-- Row 6x of the map of R87. -/
def mapRow6 : List Descriptor :=
  [documented .rts .imp 6, documented .adc .izx 6, undocEntry 0x62, undocEntry 0x63,
   undocEntry 0x64, documented .adc .zp0 3, documented .ror .zp0 5, undocEntry 0x67,
   documented .pla .imp 4, documented .adc .imm 2, documented .ror .acc 2, undocEntry 0x6B,
   documented .jmp .ind 5, documented .adc .abs 4, documented .ror .abs 6, undocEntry 0x6F]

/-- Row 7x of the map of R87. -/
def mapRow7 : List Descriptor :=
  [documented .bvs .rel 2, documented .adc .izy 5, undocEntry 0x72, undocEntry 0x73,
   undocEntry 0x74, documented .adc .zpx 4, documented .ror .zpx 6, undocEntry 0x77,
   documented .sei .imp 2, documented .adc .aby 4, undocEntry 0x7A, undocEntry 0x7B,
   undocEntry 0x7C, documented .adc .abx 4, documented .ror .abx 7, undocEntry 0x7F]

/-- Row 8x of the map of R87. -/
def mapRow8 : List Descriptor :=
  [undocEntry 0x80, documented .sta .izx 6, undocEntry 0x82, undocEntry 0x83,
   documented .sty .zp0 3, documented .sta .zp0 3, documented .stx .zp0 3, undocEntry 0x87,
   documented .dey .imp 2, undocEntry 0x89, documented .txa .imp 2, undocEntry 0x8B,
   documented .sty .abs 4, documented .sta .abs 4, documented .stx .abs 4, undocEntry 0x8F]

/-- Row 9x of the map of R87. -/
def mapRow9 : List Descriptor :=
  [documented .bcc .rel 2, documented .sta .izy 6, undocEntry 0x92, undocEntry 0x93,
   documented .sty .zpx 4, documented .sta .zpx 4, documented .stx .zpy 4, undocEntry 0x97,
   documented .tya .imp 2, documented .sta .aby 5, documented .txs .imp 2, undocEntry 0x9B,
   undocEntry 0x9C, documented .sta .abx 5, undocEntry 0x9E, undocEntry 0x9F]

/-- Row Ax of the map of R87. -/
def mapRowA : List Descriptor :=
  [documented .ldy .imm 2, documented .lda .izx 6, documented .ldx .imm 2, undocEntry 0xA3,
   documented .ldy .zp0 3, documented .lda .zp0 3, documented .ldx .zp0 3, undocEntry 0xA7,
   documented .tay .imp 2, documented .lda .imm 2, documented .tax .imp 2, undocEntry 0xAB,
   documented .ldy .abs 4, documented .lda .abs 4, documented .ldx .abs 4, undocEntry 0xAF]

/-- Row Bx of the map of R87. -/
def mapRowB : List Descriptor :=
  [documented .bcs .rel 2, documented .lda .izy 5, undocEntry 0xB2, undocEntry 0xB3,
   documented .ldy .zpx 4, documented .lda .zpx 4, documented .ldx .zpy 4, undocEntry 0xB7,
   documented .clv .imp 2, documented .lda .aby 4, documented .tsx .imp 2, undocEntry 0xBB,
   documented .ldy .abx 4, documented .lda .abx 4, documented .ldx .aby 4, undocEntry 0xBF]

/-- Row Cx of the map of R87. -/
def mapRowC : List Descriptor :=
  [documented .cpy .imm 2, documented .cmp .izx 6, undocEntry 0xC2, undocEntry 0xC3,
   documented .cpy .zp0 3, documented .cmp .zp0 3, documented .dec .zp0 5, undocEntry 0xC7,
   documented .iny .imp 2, documented .cmp .imm 2, documented .dex .imp 2, undocEntry 0xCB,
   documented .cpy .abs 4, documented .cmp .abs 4, documented .dec .abs 6, undocEntry 0xCF]

/-- Row Dx of the map of R87. -/
def mapRowD : List Descriptor :=
  [documented .bne .rel 2, documented .cmp .izy 5, undocEntry 0xD2, undocEntry 0xD3,
   undocEntry 0xD4, documented .cmp .zpx 4, documented .dec .zpx 6, undocEntry 0xD7,
   documented .cld .imp 2, documented .cmp .aby 4, undocEntry 0xDA, undocEntry 0xDB,
   undocEntry 0xDC, documented .cmp .abx 4, documented .dec .abx 7, undocEntry 0xDF]

/-- Row Ex of the map of R87. -/
def mapRowE : List Descriptor :=
  [documented .cpx .imm 2, documented .sbc .izx 6, undocEntry 0xE2, undocEntry 0xE3,
   documented .cpx .zp0 3, documented .sbc .zp0 3, documented .inc .zp0 5, undocEntry 0xE7,
   documented .inx .imp 2, documented .sbc .imm 2, documented .nop .imp 2, entryEB,
   documented .cpx .abs 4, documented .sbc .abs 4, documented .inc .abs 6, undocEntry 0xEF]

/-- Row Fx of the map of R87. -/
def mapRowF : List Descriptor :=
  [documented .beq .rel 2, documented .sbc .izy 5, undocEntry 0xF2, undocEntry 0xF3,
   undocEntry 0xF4, documented .sbc .zpx 4, documented .inc .zpx 6, undocEntry 0xF7,
   documented .sed .imp 2, documented .sbc .aby 4, undocEntry 0xFA, undocEntry 0xFB,
   undocEntry 0xFC, documented .sbc .abx 4, documented .inc .abx 7, undocEntry 0xFF]

/-- The decode table: 256 descriptors, "immutable", "fixed at build time" (R84). -/
def opcodeMap : List Descriptor :=
  mapRow0 ++ mapRow1 ++ mapRow2 ++ mapRow3 ++ mapRow4 ++ mapRow5 ++ mapRow6 ++ mapRow7
  ++ mapRow8 ++ mapRow9 ++ mapRowA ++ mapRowB ++ mapRowC ++ mapRowD ++ mapRowE ++ mapRowF

/-- The descriptor of an opcode; the default is never used, since the map has 256 entries (R84, R92). -/
def descriptor (op : Byte) : Descriptor := opcodeMap.getD op.toNat (undocEntry op)

/-! ## Lengths and operands (R81 to R83, R94) -/

/-- How many operand bytes follow the opcode in a mode (R82). -/
def Mode.operandBytes : Mode → Nat
  | .imp | .acc => 0
  | .imm | .zp0 | .zpx | .zpy | .rel | .izx | .izy => 1
  | .abs | .abx | .aby | .ind => 2

/-- The operand assembled from the bytes at p+1 and p+2; a byte the mode does not use is ignored (R94). -/
def operandOf (m : Mode) (b1 b2 : Byte) : Operand :=
  match m with
  | .imp => .imp
  | .acc => .acc
  | .imm => .imm b1
  | .zp0 => .zp0 b1
  | .zpx => .zpx b1
  | .zpy => .zpy b1
  | .rel => .rel b1
  | .abs => .abs (w16 b2 b1)
  | .abx => .abx (w16 b2 b1)
  | .aby => .aby (w16 b2 b1)
  | .ind => .ind (w16 b2 b1)
  | .izx => .izx b1
  | .izy => .izy b1

/-- The operand's bytes in the order they stand in memory, the low byte of a word first (R58, R82). -/
def Operand.bytes : Operand → List Byte
  | .imp | .acc => []
  | .imm d | .zp0 d | .zpx d | .zpy d | .rel d | .izx d | .izy d => [d]
  | .abs w | .abx w | .aby w | .ind w => [lo w, hi w]

/-- The instruction that an opcode and its operand are (R84). -/
def instrOf (op : Byte) (o : Operand) : Instr :=
  match (descriptor op).operation with
  | .adc => .adc o
  | .and => .and o
  | .asl => .asl o
  | .bcc => .bcc o
  | .bcs => .bcs o
  | .beq => .beq o
  | .bit => .bit o
  | .bmi => .bmi o
  | .bne => .bne o
  | .bpl => .bpl o
  | .brk => .brk
  | .bvc => .bvc o
  | .bvs => .bvs o
  | .clc => .clc
  | .cld => .cld
  | .cli => .cli
  | .clv => .clv
  | .cmp => .cmp o
  | .cpx => .cpx o
  | .cpy => .cpy o
  | .dec => .dec o
  | .dex => .dex
  | .dey => .dey
  | .eor => .eor o
  | .inc => .inc o
  | .inx => .inx
  | .iny => .iny
  | .jmp => .jmp o
  | .jsr => .jsr o
  | .lda => .lda o
  | .ldx => .ldx o
  | .ldy => .ldy o
  | .lsr => .lsr o
  | .nop => .nop
  | .ora => .ora o
  | .pha => .pha
  | .php => .php
  | .pla => .pla
  | .plp => .plp
  | .rol => .rol o
  | .ror => .ror o
  | .rti => .rti
  | .rts => .rts
  | .sbc => if op = 0xEB then .sbcEB o else .sbc o
  | .sec => .sec
  | .sed => .sed
  | .sei => .sei
  | .sta => .sta o
  | .stx => .stx o
  | .sty => .sty o
  | .tax => .tax
  | .tay => .tay
  | .tsx => .tsx
  | .txa => .txa
  | .txs => .txs
  | .tya => .tya
  | .xxx => .xxx op

/-! ## The decoder -/

/-- Why the decoder refuses a list of bytes. It refuses no opcode (R92), only a list that ends too soon. -/
inductive DecodeError where
  /-- There is no opcode byte. -/
  | noOpcode
  /-- The list ends before the operand bytes that the opcode's mode has. -/
  | truncated (op : Byte)
  deriving DecidableEq, Repr

/-- The instruction at the head of a list of bytes, with the bytes that follow it (R81 to R84). -/
def decode : List Byte → Except DecodeError (Instr × List Byte)
  | [] => .error .noOpcode
  | op :: rest =>
    match (descriptor op).mode.operandBytes, rest with
    | 0, _ => .ok (instrOf op (operandOf (descriptor op).mode 0 0), rest)
    | 1, b1 :: rest' => .ok (instrOf op (operandOf (descriptor op).mode b1 0), rest')
    | _, b1 :: b2 :: rest' => .ok (instrOf op (operandOf (descriptor op).mode b1 b2), rest')
    | _, _ => .error (.truncated op)

/-! ## The encoder (R88) -/

/-- The operation of an instruction. -/
def Instr.operation : Instr → Operation
  | .adc _ => .adc | .and _ => .and | .asl _ => .asl | .bcc _ => .bcc | .bcs _ => .bcs
  | .beq _ => .beq | .bit _ => .bit | .bmi _ => .bmi | .bne _ => .bne | .bpl _ => .bpl
  | .bvc _ => .bvc | .bvs _ => .bvs | .cmp _ => .cmp | .cpx _ => .cpx | .cpy _ => .cpy
  | .dec _ => .dec | .eor _ => .eor | .inc _ => .inc | .jmp _ => .jmp | .jsr _ => .jsr
  | .lda _ => .lda | .ldx _ => .ldx | .ldy _ => .ldy | .lsr _ => .lsr | .ora _ => .ora
  | .rol _ => .rol | .ror _ => .ror | .sbc _ => .sbc | .sta _ => .sta | .stx _ => .stx
  | .sty _ => .sty
  | .brk => .brk | .clc => .clc | .cld => .cld | .cli => .cli | .clv => .clv
  | .dex => .dex | .dey => .dey | .inx => .inx | .iny => .iny | .nop => .nop
  | .pha => .pha | .php => .php | .pla => .pla | .plp => .plp | .rti => .rti
  | .rts => .rts | .sec => .sec | .sed => .sed | .sei => .sei | .tax => .tax
  | .tay => .tay | .tsx => .tsx | .txa => .txa | .txs => .txs | .tya => .tya
  | .sbcEB _ => .sbc | .xxx _ => .xxx

/-- The operand of an instruction; mode IMP for a one-byte instruction (R82). -/
def Instr.operand : Instr → Operand
  | .adc o | .and o | .asl o | .bcc o | .bcs o | .beq o | .bit o
  | .bmi o | .bne o | .bpl o | .bvc o | .bvs o | .cmp o | .cpx o
  | .cpy o | .dec o | .eor o | .inc o | .jmp o | .jsr o | .lda o
  | .ldx o | .ldy o | .lsr o | .ora o | .rol o | .ror o | .sbc o
  | .sta o | .stx o | .sty o
  | .sbcEB o => o
  | .brk | .clc | .cld | .cli | .clv | .dex | .dey | .inx | .iny
  | .nop | .pha | .php | .pla | .plp | .rti | .rts | .sec | .sed
  | .sei | .tax | .tay | .tsx | .txa | .txs | .tya
  | .xxx _ => .imp

/-- The documented opcode of an operation in a mode, from the listing of R88; none where the listing has none. -/
def opcodeFor (op : Operation) (m : Mode) : Option Byte :=
  match op, m with
  | .adc, .imm => some 0x69 | .adc, .zp0 => some 0x65 | .adc, .zpx => some 0x75 | .adc, .abs => some 0x6D
  | .adc, .abx => some 0x7D | .adc, .aby => some 0x79 | .adc, .izx => some 0x61 | .adc, .izy => some 0x71
  | .and, .imm => some 0x29 | .and, .zp0 => some 0x25 | .and, .zpx => some 0x35 | .and, .abs => some 0x2D
  | .and, .abx => some 0x3D | .and, .aby => some 0x39 | .and, .izx => some 0x21 | .and, .izy => some 0x31
  | .asl, .acc => some 0x0A | .asl, .zp0 => some 0x06 | .asl, .zpx => some 0x16 | .asl, .abs => some 0x0E
  | .asl, .abx => some 0x1E
  | .bcc, .rel => some 0x90
  | .bcs, .rel => some 0xB0
  | .beq, .rel => some 0xF0
  | .bit, .zp0 => some 0x24 | .bit, .abs => some 0x2C
  | .bmi, .rel => some 0x30
  | .bne, .rel => some 0xD0
  | .bpl, .rel => some 0x10
  | .brk, .imp => some 0x00
  | .bvc, .rel => some 0x50
  | .bvs, .rel => some 0x70
  | .clc, .imp => some 0x18
  | .cld, .imp => some 0xD8
  | .cli, .imp => some 0x58
  | .clv, .imp => some 0xB8
  | .cmp, .imm => some 0xC9 | .cmp, .zp0 => some 0xC5 | .cmp, .zpx => some 0xD5 | .cmp, .abs => some 0xCD
  | .cmp, .abx => some 0xDD | .cmp, .aby => some 0xD9 | .cmp, .izx => some 0xC1 | .cmp, .izy => some 0xD1
  | .cpx, .imm => some 0xE0 | .cpx, .zp0 => some 0xE4 | .cpx, .abs => some 0xEC
  | .cpy, .imm => some 0xC0 | .cpy, .zp0 => some 0xC4 | .cpy, .abs => some 0xCC
  | .dec, .zp0 => some 0xC6 | .dec, .zpx => some 0xD6 | .dec, .abs => some 0xCE | .dec, .abx => some 0xDE
  | .dex, .imp => some 0xCA
  | .dey, .imp => some 0x88
  | .eor, .imm => some 0x49 | .eor, .zp0 => some 0x45 | .eor, .zpx => some 0x55 | .eor, .abs => some 0x4D
  | .eor, .abx => some 0x5D | .eor, .aby => some 0x59 | .eor, .izx => some 0x41 | .eor, .izy => some 0x51
  | .inc, .zp0 => some 0xE6 | .inc, .zpx => some 0xF6 | .inc, .abs => some 0xEE | .inc, .abx => some 0xFE
  | .inx, .imp => some 0xE8
  | .iny, .imp => some 0xC8
  | .jmp, .abs => some 0x4C | .jmp, .ind => some 0x6C
  | .jsr, .abs => some 0x20
  | .lda, .imm => some 0xA9 | .lda, .zp0 => some 0xA5 | .lda, .zpx => some 0xB5 | .lda, .abs => some 0xAD
  | .lda, .abx => some 0xBD | .lda, .aby => some 0xB9 | .lda, .izx => some 0xA1 | .lda, .izy => some 0xB1
  | .ldx, .imm => some 0xA2 | .ldx, .zp0 => some 0xA6 | .ldx, .zpy => some 0xB6 | .ldx, .abs => some 0xAE
  | .ldx, .aby => some 0xBE
  | .ldy, .imm => some 0xA0 | .ldy, .zp0 => some 0xA4 | .ldy, .zpx => some 0xB4 | .ldy, .abs => some 0xAC
  | .ldy, .abx => some 0xBC
  | .lsr, .acc => some 0x4A | .lsr, .zp0 => some 0x46 | .lsr, .zpx => some 0x56 | .lsr, .abs => some 0x4E
  | .lsr, .abx => some 0x5E
  | .nop, .imp => some 0xEA
  | .ora, .imm => some 0x09 | .ora, .zp0 => some 0x05 | .ora, .zpx => some 0x15 | .ora, .abs => some 0x0D
  | .ora, .abx => some 0x1D | .ora, .aby => some 0x19 | .ora, .izx => some 0x01 | .ora, .izy => some 0x11
  | .pha, .imp => some 0x48
  | .php, .imp => some 0x08
  | .pla, .imp => some 0x68
  | .plp, .imp => some 0x28
  | .rol, .acc => some 0x2A | .rol, .zp0 => some 0x26 | .rol, .zpx => some 0x36 | .rol, .abs => some 0x2E
  | .rol, .abx => some 0x3E
  | .ror, .acc => some 0x6A | .ror, .zp0 => some 0x66 | .ror, .zpx => some 0x76 | .ror, .abs => some 0x6E
  | .ror, .abx => some 0x7E
  | .rti, .imp => some 0x40
  | .rts, .imp => some 0x60
  | .sbc, .imm => some 0xE9 | .sbc, .zp0 => some 0xE5 | .sbc, .zpx => some 0xF5 | .sbc, .abs => some 0xED
  | .sbc, .abx => some 0xFD | .sbc, .aby => some 0xF9 | .sbc, .izx => some 0xE1 | .sbc, .izy => some 0xF1
  | .sec, .imp => some 0x38
  | .sed, .imp => some 0xF8
  | .sei, .imp => some 0x78
  | .sta, .zp0 => some 0x85 | .sta, .zpx => some 0x95 | .sta, .abs => some 0x8D | .sta, .abx => some 0x9D
  | .sta, .aby => some 0x99 | .sta, .izx => some 0x81 | .sta, .izy => some 0x91
  | .stx, .zp0 => some 0x86 | .stx, .zpy => some 0x96 | .stx, .abs => some 0x8E
  | .sty, .zp0 => some 0x84 | .sty, .zpx => some 0x94 | .sty, .abs => some 0x8C
  | .tax, .imp => some 0xAA
  | .tay, .imp => some 0xA8
  | .tsx, .imp => some 0xBA
  | .txa, .imp => some 0x8A
  | .txs, .imp => some 0x9A
  | .tya, .imp => some 0x98
  | _, _ => none

/-- The opcode of an instruction; none for a term that stands for no opcode (R88, R90, R91). -/
def Instr.opcode (i : Instr) : Option Byte :=
  match i with
  | .sbcEB o => if o.mode = .imm then some 0xEB else none
  | .xxx op => if undocumented.contains op then some op else none
  | .adc _ | .and _ | .asl _ | .bcc _ | .bcs _ | .beq _ | .bit _
  | .bmi _ | .bne _ | .bpl _ | .bvc _ | .bvs _ | .cmp _ | .cpx _
  | .cpy _ | .dec _ | .eor _ | .inc _ | .jmp _ | .jsr _ | .lda _
  | .ldx _ | .ldy _ | .lsr _ | .ora _ | .rol _ | .ror _ | .sbc _
  | .sta _ | .stx _ | .sty _
  | .brk | .clc | .cld | .cli | .clv | .dex | .dey | .inx | .iny
  | .nop | .pha | .php | .pla | .plp | .rti | .rts | .sec | .sed
  | .sei | .tax | .tay | .tsx | .txa | .txs | .tya => opcodeFor i.operation i.operand.mode

/-- The bytes of a well-formed instruction, at ascending addresses (R82); the empty list for a term that is none. -/
def encode (i : Instr) : List Byte :=
  match i.opcode with
  | some op => op :: i.operand.bytes
  | none => []

/-! ## The host's table words -/

/-- Byte `k` of an instruction whose bits are `w`, bit 0 the least significant bit of the first byte; bits from `nbits`
on are 0. -/
def tableByte (nbits w k : Nat) : Byte := BitVec.ofNat 8 (w % 2 ^ nbits / 2 ^ (8 * k))

/-- What the decoder reads from an instruction whose bits are `w`, as spec/opcode_table.json numbers them. -/
def decodeTableWord (nbits w : Nat) : Option Instr :=
  match decode [tableByte nbits w 0, tableByte nbits w 1, tableByte nbits w 2] with
  | .ok (i, _) => some i
  | .error _ => none

end Sys2Proof
end

