-- ==== Sys2Proof/Machine/State.lean ====
section
/-! DEFINITION. The machine's state as plain data, the reasons a step can stop, and the state after reset
(10_state.md; 20_memory.md R52 to R57; 40_fetch_execute.md R101, R113). -/

namespace Sys2Proof.Machine

/-- Which instance of the parameter `BUS` is installed (00_scope.md R8, 20_memory.md R52). -/
inductive Bus where
  /-- `FlatRAM64K`, the reference instance: "every address maps identity" (R55). -/
  | flatRam
  /-- `NESBus` (R56); `routed` lists the address ranges, first and last address included, where a device answers. -/
  | nes (routed : List (Addr × Addr))
  /-- Any other instance: "a read may return any byte", "a write may be dropped" (R57). -/
  | other
  deriving DecidableEq, Repr

/-- One bus transaction, a one-byte read or write (R53). -/
inductive Txn where
  | read (a : Addr) (v : Byte)
  | write (a : Addr) (v : Byte)
  deriving DecidableEq, Repr

/-- What `get_state` and `set_state` exchange: `(PC, SP, A, X, Y, P)` (10_state.md R44). -/
structure Snapshot where
  pc : Addr
  sp : Byte
  a : Byte
  x : Byte
  y : Byte
  p : Byte
  deriving DecidableEq, Repr

/-- A call of the core's interface (40_fetch_execute.md R101). -/
inductive HostCall where
  /-- `connect(bus)`, with `MEM_INIT` as a list of bytes, a later entry for an address overriding an earlier one (R102). -/
  | connect (bus : Bus) (memInit : List (Addr × Byte))
  | runCycle
  | runInstruction
  | getState
  | setState (r : Snapshot)
  | readMemory (a : Addr)
  | writeMemory (a : Addr) (v : Byte)
  | reset
  | irq
  | nmi
  deriving DecidableEq, Repr

/-- What a call hands back to the host (R101, R116). -/
inductive Reply where
  /-- the number of cycles `run_instruction` ran (R109) -/
  | cycles (n : Nat)
  | snapshot (r : Snapshot)
  /-- the byte `read_memory` returned (R111) -/
  | byte (v : Byte)
  /-- the bus's Boolean result of `write_memory` (R111) -/
  | taken (b : Bool)
  deriving DecidableEq, Repr

/-- The state of the core, of its bus, and of the host's call interface. -/
structure State where
  /-- program counter (R23) -/
  pc : Addr
  /-- stack pointer; the stack address is `0x0100 | SP` (R24) -/
  sp : Byte
  /-- accumulator (R21) -/
  a : Byte
  /-- index register X (R21) -/
  x : Byte
  /-- index register Y (R21) -/
  y : Byte
  /-- status register: bit 0 C, 1 Z, 2 I, 3 D, 4 B, 5 U, 6 V, 7 N (R25) -/
  p : Byte
  /-- "current opcode byte" (R38) -/
  opcode : Byte
  /-- "pointer to the decoded instruction descriptor", or none (R38) -/
  desc : Option Descriptor
  /-- "remaining cycles for this instruction" (R38) -/
  remainingCycles : Nat
  /-- an instruction has been fetched and resolved and its operation has not yet run (R38) -/
  inFlight : Bool
  /-- the OperandRef (R38, R39) -/
  operandRef : OperandRef
  /-- the sign-extended branch displacement (R38, R42) -/
  branchOffset : Addr
  /-- the resolver found a page cross in mode ABX, ABY or IZY (R38, R42) -/
  pageCrossed : Bool
  /-- `run_cycle` calls since `connect` (R43) -/
  cyclesElapsed : Nat
  /-- the installed bus; none before `connect` (R49, R102) -/
  bus : Option Bus
  /-- the bus's RAM as (address, byte) pairs in canonical form (R55, R56): log entry 4 -/
  mem : List Host.Cell
  /-- the build parameters (R8) -/
  cfg : Config
  /-- the model's own: bus transactions made since `connect`, which numbers the free values (log entry 8) -/
  busTime : Nat
  /-- the bus transactions of the step being run, oldest first (R61, R101; log entry 28) -/
  busLog : List Txn
  /-- the model's own: the calls the host makes next, oldest first (R101, R239; log entry 2) -/
  hostCalls : List HostCall
  /-- what the last call handed back (R101; log entry 28) -/
  reply : Option Reply
  deriving DecidableEq, Repr

/-- Why the machine stops. The spec's core has no fault (60_exceptions.md R233). -/
inductive Fault where
  /-- Raised by `execute` and by `run_instruction` when an instruction is marked in flight and there is no descriptor.
  The fetch sets both at once and nothing clears the descriptor alone (R47, R105), so no run reaches this. Safe. -/
  | noDescriptor
  deriving DecidableEq, Repr

/-- Why a step has no meaning. The first four after `notModelled` are the refusals of 40_fetch_execute.md R113. -/
inductive Refusal where
  /-- An instruction without a meaning yet, raised by `exec`'s arms. No arm uses it. Safe. -/
  | notModelled (mnemonic : String)
  /-- `NotConnected`: any call but `connect` before `connect` (R113), raised by every call of Interface.lean. Safe. -/
  | notConnected
  /-- `AlreadyConnected`: a second `connect` (R113), raised by `connect`. Safe. -/
  | alreadyConnected
  /-- `MidInstructionSetState`: `set_state` while an instruction is in flight (R113), raised by `setState`. Safe. -/
  | midInstructionSetState
  /-- `MidInstructionInterrupt`: `irq` or `nmi` while an instruction is in flight (R113, 60_exceptions.md R240),
  raised by `irq` and `nmi`. Safe. -/
  | midInstructionInterrupt
  /-- A term of `Instr` that is no instruction of the opcode table (`Instr.wf` is false), raised by `exec` alone: no byte
  decodes to such a term (log entry 26). Safe. -/
  | notEncodable
  deriving DecidableEq, Repr

/-- The state right after the power-on RESET that `connect` performs, on `FlatRAM64K` with no byte of `MEM_INIT` listed
(10_state.md R46, 70_reset_and_hazards.md R261, R263, R264; log entries 4, 5, 6, 20, 28). -/
def State.reset : State where
  pc := 0x0000
  sp := 0xFD
  a := 0x00
  x := 0x00
  y := 0x00
  p := 0x34
  opcode := 0x00
  desc := none
  remainingCycles := 8
  inFlight := false
  operandRef := .regA
  branchOffset := 0
  pageCrossed := false
  cyclesElapsed := 0
  bus := some .flatRam
  mem := []
  cfg := Config.reference
  busTime := 2
  busLog := [.read 0xFFFC 0x00, .read 0xFFFD 0x00]
  hostCalls := []
  reply := none

end Sys2Proof.Machine
end

