-- ==== Sys2Proof/Machine/Flags.lean ====
section
/-! DEFINITION. The status register P: its bits, the three byte functions of pushes and pulls, and every computation of
flags (10_state.md R25 to R34, 44_logic_arith.md R163, R170, 46_compare_bit_incdec.md R183). -/

namespace Sys2Proof.Machine

/-! ## The bits of P (R25) -/

/-- Carry, bit 0. -/
def flagC (p : Byte) : Bool := p.getLsbD 0
/-- Zero, bit 1. -/
def flagZ (p : Byte) : Bool := p.getLsbD 1
/-- Interrupt-Disable, bit 2. -/
def flagI (p : Byte) : Bool := p.getLsbD 2
/-- Decimal, bit 3. -/
def flagD (p : Byte) : Bool := p.getLsbD 3
/-- Break, bit 4. -/
def flagB (p : Byte) : Bool := p.getLsbD 4
/-- Unused/reserved, bit 5. -/
def flagU (p : Byte) : Bool := p.getLsbD 5
/-- Overflow, bit 6. -/
def flagV (p : Byte) : Bool := p.getLsbD 6
/-- Negative, bit 7. -/
def flagN (p : Byte) : Bool := p.getLsbD 7

/-- P with the bits of a mask set to 1 when `b` is true and to 0 when it is false; the others stay. -/
def putFlag (mask : Byte) (b : Bool) (p : Byte) : Byte := if b then p ||| mask else p &&& ~~~mask

/-- `P.C <- b` -/
def putC (b : Bool) (p : Byte) : Byte := putFlag 0x01 b p
/-- `P.Z <- b` -/
def putZ (b : Bool) (p : Byte) : Byte := putFlag 0x02 b p
/-- `P.I <- b` -/
def putI (b : Bool) (p : Byte) : Byte := putFlag 0x04 b p
/-- `P.D <- b` -/
def putD (b : Bool) (p : Byte) : Byte := putFlag 0x08 b p
/-- `P.V <- b` -/
def putV (b : Bool) (p : Byte) : Byte := putFlag 0x40 b p
/-- `P.N <- b` -/
def putN (b : Bool) (p : Byte) : Byte := putFlag 0x80 b p

/-- `setZN(v)`: `P.Z <- (v == 0); P.N <- v[7]` (00_scope.md R10). -/
def setZN (v : Byte) (p : Byte) : Byte := putN (v.getLsbD 7) (putZ (v == 0) p)

/-! ## Pushing and pulling P (R34) -/

/-- The byte PHP and BRK push: B = 1, U = 1. -/
def pushedPsw (p : Byte) : Byte := p ||| 0x30
/-- The byte IRQ and NMI push: B = 0, U = 1. -/
def pushedPhw (p : Byte) : Byte := (p &&& 0xEF) ||| 0x20
/-- The P that PLP and RTI leave: bits 4 and 5 kept from the live P before the pull. -/
def pulledP (old v : Byte) : Byte := (v &&& 0xCF) ||| (old &&& 0x30)

/-! ## Arithmetic (R163, R170) -/

/-- A result byte and the four flags that ADC and SBC write. -/
structure AdderResult where
  res : Byte
  c : Bool
  z : Bool
  n : Bool
  v : Bool
  deriving DecidableEq, Repr

/-- A carry bit as a number. -/
def carryIn (c : Bool) : Nat := if c then 1 else 0

/-- The binary adder (R163). -/
def add8 (a m : Byte) (c : Bool) : AdderResult :=
  let r := a.toNat + m.toNat + carryIn c
  let res := BitVec.ofNat 8 r
  { res := res
    c := decide (r > 0xFF)
    z := res == 0
    n := res.getLsbD 7
    v := ((a ^^^ res) &&& 0x80 != 0) && ((a ^^^ m) &&& 0x80 == 0) }

/-- The low digit of a byte, as an integer. -/
def digitLo (v : Byte) : Int := (v.toNat % 16 : Nat)
/-- A byte less its low digit, `v - v mod 16`, as an integer. -/
def digitHi (v : Byte) : Int := (v.toNat - v.toNat % 16 : Nat)
/-- `sx(v)` of `v - v mod 16`: the high digit's value read as signed (R170). -/
def digitHiSigned (v : Byte) : Int := if digitHi v < 128 then digitHi v else digitHi v - 256

/-- Decimal addition (R170; PRESUMED: general knowledge of the NMOS 6502, log entry 10). -/
def adcDec (a m : Byte) (c : Bool) : AdderResult :=
  let low := digitLo a + digitLo m + carryIn c
  let al := if low ≥ 0x0A then (low + 0x06) % 16 + 0x10 else low
  let high := digitHi a + digitHi m + al
  let s := if high ≥ 0xA0 then high + 0x60 else high
  let t := digitHiSigned a + digitHiSigned m + al
  { res := BitVec.ofInt 8 s
    c := decide (s ≥ 0x100)
    z := (a.toNat + m.toNat + carryIn c) % 256 == 0
    n := (BitVec.ofInt 8 t).getLsbD 7
    v := decide (t < -128) || decide (t > 127) }

/-- Decimal subtraction; its flags are those of the binary one (R170; log entry 10). -/
def sbcDec (a m : Byte) (c : Bool) : AdderResult :=
  let low := digitLo a - digitLo m + carryIn c - 1
  let al := if low < 0 then (low - 0x06) % 16 - 0x10 else low
  let high := digitHi a - digitHi m + al
  let s := if high < 0 then high - 0x60 else high
  { add8 a (~~~m) c with res := BitVec.ofInt 8 s }

/-- What ADC computes: decimal when `DECIMAL_MODE` and D = 1, else binary (R167). -/
def adcSum (cfg : Config) (p a m : Byte) : AdderResult :=
  if cfg.decimalMode && flagD p then adcDec a m (flagC p) else add8 a m (flagC p)

/-- What SBC computes: decimal when `DECIMAL_MODE` and D = 1, else binary on the complement of m (R168). -/
def sbcSum (cfg : Config) (p a m : Byte) : AdderResult :=
  if cfg.decimalMode && flagD p then sbcDec a m (flagC p) else add8 a (~~~m) (flagC p)

/-- P with C, Z, N and V from a sum (R167). -/
def putSum (r : AdderResult) (p : Byte) : Byte := putV r.v (putN r.n (putZ r.z (putC r.c p)))

/-- The flags of `compare(r, m)`: C, Z and N (R183). -/
def compareP (r m p : Byte) : Byte :=
  putN ((r - m).getLsbD 7) (putZ (r == m) (putC (decide (r.toNat ≥ m.toNat)) p))

/-- The flags of BIT: Z from A and the operand, V and N from the operand's bits 6 and 7 (R187). -/
def bitP (a m p : Byte) : Byte := putN (m.getLsbD 7) (putV (m.getLsbD 6) (putZ (a &&& m == 0) p))

end Sys2Proof.Machine
end

