-- ==== Sys2Proof/Machine/Memory.lean ====
section
/-! DEFINITION. The bus's RAM as a list of (address, byte) pairs (20_memory.md R51, R55, R56). Its canonical form:
addresses strictly rising, and no byte equal to what an unlisted address reads as. -/

namespace Sys2Proof.Machine

/-- What an address that the list does not name reads as. DESIGN CHOICE, unsafe (log entry 4): the spec leaves
`MEM_INIT` to the host (R48, D17). -/
def memBlank : Byte := 0x00

/-- The byte at an address: "the last byte written there, or the byte of `MEM_INIT`" (R55). -/
def memRead : List Host.Cell → Nat → Byte
  | [], _ => memBlank
  | (k, v) :: m, a => if a = k then v else memRead m a

/-- Put a byte at the head of a list whose addresses are higher; the blank byte is not listed. -/
def memCons (a : Nat) (v : Byte) (m : List Host.Cell) : List Host.Cell :=
  if v = memBlank then m else (a, v) :: m

/-- Write a byte, keeping the canonical form (R55). -/
def memWrite : List Host.Cell → Nat → Byte → List Host.Cell
  | [], a, v => memCons a v []
  | (k, w) :: m, a, v =>
    if a < k then memCons a v ((k, w) :: m)
    else if a = k then memCons a v m
    else (k, w) :: memWrite m a v

/-- The canonical form, for a list whose addresses are at least `least` and below `bound`. -/
def memWfFrom (bound : Nat) : Nat → List Host.Cell → Bool
  | _, [] => true
  | least, (k, v) :: m => decide (least ≤ k) && decide (k < bound) && (v != memBlank) && memWfFrom bound (k + 1) m

/-- How many RAM bytes stand behind a bus: 64 KiB for `FlatRAM64K` (R55), 2 KiB for `NESBus` (R56), none in the core's
knowledge for any other. Before `connect` no bus bounds the list. -/
def ramSize : Option Bus → Nat
  | some .flatRam => 65536
  | some (.nes _) => 2048
  | some .other => 0
  | none => 65536

/-- A memory in canonical form that fits the RAM behind the bus. -/
def memWf (b : Option Bus) (m : List Host.Cell) : Bool := memWfFrom (ramSize b) 0 m

end Sys2Proof.Machine
end

