-- ==== Sys2Proof/Machine/Ops.lean ====
section
/-! DEFINITION. The shared operations: the bus (20_memory.md), the stack (10_state.md R35 to R37), the OperandRef
(R39 to R41), entering a handler (49_system.md R226, 60_exceptions.md R234), the return from one (47_jump_branch.md R200),
and clearing the transient decode state (R47). -/

namespace Sys2Proof.Machine

/-! ## The bus -/

/-- A device answers at `a` on a `NESBus` with these routed ranges; ranges count only above the work RAM (R56). -/
def nesRouted (routed : List (Addr × Addr)) (a : Addr) : Bool :=
  decide (0x2000 ≤ a.toNat) && routed.any (fun r => decide (r.1.toNat ≤ a.toNat) && decide (a.toNat ≤ r.2.toNat))

/-- The RAM byte behind an address: `FlatRAM64K` maps identity (R55); `NESBus` mirrors 2 KiB in 0x0000..=0x1FFF (R56);
nothing is known of any other bus (R57). -/
def backing (b : Option Bus) (a : Addr) : Option Nat :=
  match b with
  | some .flatRam => some a.toNat
  | some (.nes _) => if a.toNat ≤ 0x1FFF then some (a.toNat % 0x0800) else none
  | some .other => none
  | none => none

/-- The byte that a bus read of `a` returns now (R55 to R57). The state has no bus only before `connect`; the core
then makes no transaction (R49, log entry 24). -/
def busPeek (s : State) (a : Addr) : Byte :=
  match backing s.bus a with
  | some k => memRead s.mem k
  | none =>
    match s.bus with
    | some (.nes routed) =>
      if 0x8000 ≤ a.toNat then Config.nesHighMap a
      else if nesRouted routed a then Config.deviceByte s.busTime a
      else 0
    | _ => Config.deviceByte s.busTime a

/-- The result of a bus write of `a` now: whether "a backed byte took it" (R52, R54, R56, U11). -/
def busTakes (s : State) (a : Addr) : Bool :=
  match backing s.bus a with
  | some _ => true
  | none =>
    match s.bus with
    | some (.nes routed) => if nesRouted routed a then Config.deviceTook s.busTime a else false
    | _ => Config.deviceTook s.busTime a

/-- One bus transaction takes place: it is numbered, and it appears at the bus port (R53, R61). -/
def noteTxn (t : Txn) (s : State) : State :=
  { s with busTime := s.busTime + 1, busLog := s.busLog ++ [t] }

/-- `MemRead(a, 1)`: one read transaction (R52, R53). -/
def busRead (s : State) (a : Addr) : Byte × State :=
  (busPeek s a, noteTxn (.read a (busPeek s a)) s)

/-- The RAM after a write of `v` at `a`: unchanged where no RAM byte is behind `a`. -/
def memPut (b : Option Bus) (m : List Host.Cell) (a : Addr) (v : Byte) : List Host.Cell :=
  match backing b a with
  | some k => memWrite m k v
  | none => m

/-- `MemWrite(a, 1, v)`: one write transaction. Its result, `busTakes`, is discarded (R52, R54). -/
def busWrite (s : State) (a : Addr) (v : Byte) : State :=
  noteTxn (.write a v) { s with mem := memPut s.bus s.mem a v }

/-- Two reads of a little-endian word, its low byte first, from the two addresses a rule gives (R58, R61, D13). -/
def busReadWord (s : State) (aLo aHi : Addr) : Addr × State :=
  let l := busRead s aLo
  let h := busRead l.2 aHi
  (w16 h.1 l.1, h.2)

/-! ## The stack -/

/-- The stack address `0x0100 | SP` (R24). -/
def stackAddr (sp : Byte) : Addr := 0x0100 ||| zext16 sp

/-- `push(v)`: "Push decrements SP *after* write" (R35). -/
def push (v : Byte) (s : State) : State :=
  let w := busWrite s (stackAddr s.sp) v
  { w with sp := w.sp - 1 }

/-- `pop()`: "Pop increments SP *before* read" (R36). -/
def pop (s : State) : Byte × State :=
  busRead { s with sp := s.sp + 1 } (stackAddr (s.sp + 1))

/-- The two pushes of a word, its high byte first (R58). -/
def pushWord (w : Addr) (s : State) : State := push (lo w) (push (hi w) s)

/-- The two pops of a word, its low byte first (D13). -/
def popWord (s : State) : Addr × State :=
  let l := pop s
  let h := pop l.2
  (w16 h.1 l.1, h.2)

/-! ## The OperandRef -/

/-- `Load(ref)` through the state's OperandRef: a fresh bus read, or A (R40). -/
def load (s : State) : Byte × State :=
  match s.operandRef with
  | .mem a => busRead s a
  | .regA => (s.a, s)

/-- `Store(ref, v)` through the state's OperandRef: a bus write, or A (R40). -/
def store (v : Byte) (s : State) : State :=
  match s.operandRef with
  | .mem a => busWrite s a v
  | .regA => { s with a := v }

/-- The address an OperandRef denotes, which JMP and JSR take without dereferencing it; their modes give no `REG_A`
(R196, R197), for which the PC is left (log entry 27). -/
def target (s : State) : Addr :=
  match s.operandRef with
  | .mem t => t
  | .regA => s.pc

/-- The increment of an OperandRef (R41). No instruction uses it. -/
def refInc : OperandRef → OperandRef
  | .mem a => .mem (a + 1)
  | .regA => .regA

/-! ## Entering a handler and returning from it -/

/-- The vectors, each a little-endian word at a fixed address (R64, 60_exceptions.md R237). -/
def vectorNmi : Addr := 0xFFFA
/-- The RESET vector. -/
def vectorReset : Addr := 0xFFFC
/-- The vector that IRQ and BRK share (R238). -/
def vectorIrq : Addr := 0xFFFE

/-- The entry that BRK, IRQ and NMI share: push PC, push the given image of P, set I, load PC from the vector, in this
order (R226, R234, D14). The live B and every other bit of P stay (D20). -/
def enterHandler (vector : Addr) (pushed : Byte) (s : State) : State :=
  let s1 := push pushed (pushWord s.pc s)
  let s2 := { s1 with p := putI true s1.p }
  let w := busReadWord s2 vector (vector + 1)
  { w.2 with pc := w.1 }

/-- The return from a handler: pop P, keeping the live B and U, then pop PC (R200, R242). -/
def leaveHandler (s : State) : State :=
  let v := pop s
  let s1 := { v.2 with p := pulledP v.2.p v.1 }
  let w := popWord s1
  { w.2 with pc := w.1 }

/-- The transient decode state cleared, as RESET, IRQ and NMI entry do (R47; the values are D21's, DESIGN CHOICE, log entry 20). -/
def clearTransient (s : State) : State :=
  { s with inFlight := false, desc := none, pageCrossed := false, branchOffset := 0, operandRef := .regA, opcode := 0x00 }

end Sys2Proof.Machine
end

