-- ==== Sys2Proof/Machine/Operands.lean ====
section
/-! DEFINITION. Fetching an instruction's bytes, the operand resolver with its 13 addressing modes
(41_addressing_modes.md), and running an operation on a resolved operand (40_fetch_execute.md R105 to R107). -/

namespace Sys2Proof.Machine

/-! ## Fetching (R105) -/

/-- The byte at PC, and PC advanced by one modulo 65536 (R23). -/
def fetchByte (s : State) : Byte × State :=
  let r := busRead s s.pc
  (r.1, { r.2 with pc := r.2.pc + 1 })

/-- The word at PC, its low byte first (R58). -/
def fetchWord (s : State) : Addr × State :=
  let l := fetchByte s
  let h := fetchByte l.2
  (w16 h.1 l.1, h.2)

/-- The operand bytes of a mode, PC advanced past them. The literal of IMM is passed over without a transaction: the
operation reads it (R123, D12; log entry 15). -/
def fetchOperand (m : Mode) (s : State) : Operand × State :=
  match m with
  | .imp => (.imp, s)
  | .acc => (.acc, s)
  | .imm => (.imm (busPeek s s.pc), { s with pc := s.pc + 1 })
  | .zp0 => (.zp0 (fetchByte s).1, (fetchByte s).2)
  | .zpx => (.zpx (fetchByte s).1, (fetchByte s).2)
  | .zpy => (.zpy (fetchByte s).1, (fetchByte s).2)
  | .rel => (.rel (fetchByte s).1, (fetchByte s).2)
  | .abs => (.abs (fetchWord s).1, (fetchWord s).2)
  | .abx => (.abx (fetchWord s).1, (fetchWord s).2)
  | .aby => (.aby (fetchWord s).1, (fetchWord s).2)
  | .ind => (.ind (fetchWord s).1, (fetchWord s).2)
  | .izx => (.izx (fetchByte s).1, (fetchByte s).2)
  | .izy => (.izy (fetchByte s).1, (fetchByte s).2)

/-- The instruction at PC, and the state in which PC is past its last byte (R81, R105). -/
def fetch (s : State) : Instr × State :=
  let op := fetchByte s
  let o := fetchOperand (descriptor op.1).mode op.2
  (instrOf op.1 o.1, o.2)

/-! ## The resolver (R121 to R133) -/

/-- The page-cross condition: "base and resolved addresses differ in their high byte" (R135). -/
def crosses (base a : Addr) : Bool := hi base != hi a

/-- The second pointer address of mode IND, with the page-boundary bug (R131). -/
def indHigh (ptr : Addr) : Addr := if lo ptr = 0xFF then w16 (hi ptr) 0x00 else ptr + 1

/-- The state with its OperandRef set and nothing else resolved. -/
def setRef (r : OperandRef) (s : State) : State := { s with operandRef := r }

/-- An indexed address: the OperandRef and the page-cross mark (R129, R130, R133). -/
def setIndexed (base : Addr) (index : Byte) (s : State) : State :=
  { s with operandRef := .mem (base + zext16 index), pageCrossed := crosses base (base + zext16 index) }

/-- The addressing-mode resolver on an operand whose bytes have been read and passed: it sets the OperandRef, the branch
offset and the page-cross mark, and reads the pointer bytes of IND, IZX and IZY (R134). -/
def resolve (o : Operand) (s : State) : State :=
  match o with
  | .imp => setRef .regA s
  | .acc => setRef .regA s
  | .imm _ => setRef (.mem (s.pc - 1)) s
  | .zp0 d => setRef (.mem (zext16 d)) s
  | .zpx d => setRef (.mem (zext16 (d + s.x))) s
  | .zpy d => setRef (.mem (zext16 (d + s.y))) s
  | .rel d => setRef .regA { s with branchOffset := sext16 d }
  | .abs w => setRef (.mem w) s
  | .abx w => setIndexed w s.x s
  | .aby w => setIndexed w s.y s
  | .ind w => setRef (.mem (busReadWord s w (indHigh w)).1) (busReadWord s w (indHigh w)).2
  | .izx d =>
    setRef (.mem (busReadWord s (zext16 (d + s.x)) (zext16 (d + s.x + 1))).1)
      (busReadWord s (zext16 (d + s.x)) (zext16 (d + s.x + 1))).2
  | .izy d =>
    setIndexed (busReadWord s (zext16 d) (zext16 (d + 1))).1 s.y (busReadWord s (zext16 d) (zext16 (d + 1))).2

/-- The decode part of the fetch: the opcode, its descriptor, no branch offset and no page cross yet, the base cycles, and
an instruction in flight (R105). -/
def enter (op : Byte) (s : State) : State :=
  { s with
    opcode := op
    desc := some (descriptor op)
    branchOffset := 0
    pageCrossed := false
    remainingCycles := (descriptor op).baseCycles
    inFlight := true }

/-! ## Executing (R106, R107) -/

/-- The page-cross penalty, `page_crossed ? 1 : 0` (R107). -/
def penalty (s : State) : Nat := if s.pageCrossed then 1 else 0

/-- A byte into A, with Z and N set from it: the end of LDA, TXA, TYA, PLA, AND, ORA and EOR. -/
def putA (v : Byte) (s : State) : State := { s with a := v, p := setZN v s.p }
/-- A byte into X, with Z and N set from it: the end of LDX, TAX, TSX, INX and DEX. -/
def putX (v : Byte) (s : State) : State := { s with x := v, p := setZN v s.p }
/-- A byte into Y, with Z and N set from it: the end of LDY, TAY, INY and DEY. -/
def putY (v : Byte) (s : State) : State := { s with y := v, p := setZN v s.p }

/-- `execute()` of one operation: its extra cycles are added and the instruction is finished (R106). An operation maps a
state to the state after it and its extra cycles. -/
def executeOp (op : State → State × Nat) (s : State) : State :=
  let r := op s
  { r.1 with remainingCycles := r.1.remainingCycles + r.2, inFlight := false }

/-- The remaining cycles pass: calls that only count (R104). -/
def passCycles (s : State) : State :=
  { s with cyclesElapsed := s.cyclesElapsed + s.remainingCycles, remainingCycles := 0 }

/-- The cycles up to the operation's cycle pass, and the operation runs (R104). -/
def retire (op : State → State × Nat) (s : State) : State := executeOp op (passCycles s)

/-- An instruction whose bytes have been fetched, from its decoding to its operation's cycle, as one composition (R114).
A term that is no instruction is refused (log entry 26). -/
def perform (i : Instr) (op : State → State × Nat) (s : State) : Host.Outcome State Fault Refusal :=
  match i.opcode with
  | some b => .next (retire op (resolve i.operand (enter b s)))
  | none => .refused .notEncodable

end Sys2Proof.Machine
end

