-- ==== Sys2Proof/Machine/Arith.lean ====
section
/-! DEFINITION. Logic and arithmetic (44_logic_arith.md). -/

namespace Sys2Proof.Machine

/-- A sum's byte into A and its flags into P (R167, R168). -/
def putResult (r : AdderResult) (s : State) : State := { s with a := r.res, p := putSum r s.p }

/-- The operation of AND, bitwise and (R164). -/
def opAnd (s : State) : State × Nat :=
  let m := load s
  (putA (m.2.a &&& m.1) m.2, penalty s)

/-- AND (R164). -/
def execAnd (o : Operand) (s : State) : Host.Outcome State Fault Refusal := perform (.and o) opAnd s

/-- The operation of ORA, bitwise or (R165). -/
def opOra (s : State) : State × Nat :=
  let m := load s
  (putA (m.2.a ||| m.1) m.2, penalty s)

/-- ORA (R165). -/
def execOra (o : Operand) (s : State) : Host.Outcome State Fault Refusal := perform (.ora o) opOra s

/-- The operation of EOR, bitwise exclusive or (R166). -/
def opEor (s : State) : State × Nat :=
  let m := load s
  (putA (m.2.a ^^^ m.1) m.2, penalty s)

/-- EOR (R166). -/
def execEor (o : Operand) (s : State) : Host.Outcome State Fault Refusal := perform (.eor o) opEor s

/-- The operation of ADC, add with carry (R167). -/
def opAdc (s : State) : State × Nat :=
  let m := load s
  (putResult (adcSum m.2.cfg m.2.p m.2.a m.1) m.2, penalty s)

/-- ADC (R167). -/
def execAdc (o : Operand) (s : State) : Host.Outcome State Fault Refusal := perform (.adc o) opAdc s

/-- The operation of SBC, subtract with borrow (R168). -/
def opSbc (s : State) : State × Nat :=
  let m := load s
  (putResult (sbcSum m.2.cfg m.2.p m.2.a m.1) m.2, penalty s)

/-- SBC (R168). -/
def execSbc (o : Operand) (s : State) : Host.Outcome State Fault Refusal := perform (.sbc o) opSbc s

/-- Opcode 0xEB: "Its semantics are exactly those of rule R168 in mode IMM" (R169). -/
def execSbcEB (o : Operand) (s : State) : Host.Outcome State Fault Refusal := perform (.sbcEB o) opSbc s

end Sys2Proof.Machine
end

