-- ==== Sys2Proof/Machine/CompareIncDec.lean ====
section
/-! DEFINITION. Compare, bit test, increment and decrement (46_compare_bit_incdec.md). -/

namespace Sys2Proof.Machine

/-- Read through the OperandRef, add modulo 256, write back through it, set Z and N (R188, R189). -/
def addToOperand (d : Byte) (s : State) : State :=
  let m := load s
  let s1 := store (m.1 + d) m.2
  { s1 with p := setZN (m.1 + d) s1.p }

/-- The operation of CMP, compare accumulator (R184). -/
def opCmp (s : State) : State × Nat :=
  let m := load s
  ({ m.2 with p := compareP m.2.a m.1 m.2.p }, penalty s)

/-- CMP (R184). -/
def execCmp (o : Operand) (s : State) : Host.Outcome State Fault Refusal := perform (.cmp o) opCmp s

/-- The operation of CPX, compare X (R185). -/
def opCpx (s : State) : State × Nat :=
  let m := load s
  ({ m.2 with p := compareP m.2.x m.1 m.2.p }, 0)

/-- CPX (R185). -/
def execCpx (o : Operand) (s : State) : Host.Outcome State Fault Refusal := perform (.cpx o) opCpx s

/-- The operation of CPY, compare Y (R186). -/
def opCpy (s : State) : State × Nat :=
  let m := load s
  ({ m.2 with p := compareP m.2.y m.1 m.2.p }, 0)

/-- CPY (R186). -/
def execCpy (o : Operand) (s : State) : Host.Outcome State Fault Refusal := perform (.cpy o) opCpy s

/-- The operation of BIT, test bits (R187). -/
def opBit (s : State) : State × Nat :=
  let m := load s
  ({ m.2 with p := bitP m.2.a m.1 m.2.p }, 0)

/-- BIT (R187). -/
def execBit (o : Operand) (s : State) : Host.Outcome State Fault Refusal := perform (.bit o) opBit s

/-- The operation of INC, increment memory (R188). -/
def opInc (s : State) : State × Nat :=
  (addToOperand 1 s, 0)

/-- INC (R188). -/
def execInc (o : Operand) (s : State) : Host.Outcome State Fault Refusal := perform (.inc o) opInc s

/-- The operation of DEC, decrement memory (R189). -/
def opDec (s : State) : State × Nat :=
  (addToOperand (-1) s, 0)

/-- DEC (R189). -/
def execDec (o : Operand) (s : State) : Host.Outcome State Fault Refusal := perform (.dec o) opDec s

/-- The operation of INX, increment X (R190). -/
def opInx (s : State) : State × Nat :=
  (putX (s.x + 1) s, 0)

/-- INX (R190). -/
def execInx (s : State) : Host.Outcome State Fault Refusal := perform .inx opInx s

/-- The operation of INY, increment Y (R191). -/
def opIny (s : State) : State × Nat :=
  (putY (s.y + 1) s, 0)

/-- INY (R191). -/
def execIny (s : State) : Host.Outcome State Fault Refusal := perform .iny opIny s

/-- The operation of DEX, decrement X (R192). -/
def opDex (s : State) : State × Nat :=
  (putX (s.x - 1) s, 0)

/-- DEX (R192). -/
def execDex (s : State) : Host.Outcome State Fault Refusal := perform .dex opDex s

/-- The operation of DEY, decrement Y (R193). -/
def opDey (s : State) : State × Nat :=
  (putY (s.y - 1) s, 0)

/-- DEY (R193). -/
def execDey (s : State) : Host.Outcome State Fault Refusal := perform .dey opDey s

end Sys2Proof.Machine
end

