-- ==== Sys2Proof/Machine/Control.lean ====
section
/-! DEFINITION. Jumps, subroutines and branches (47_jump_branch.md). The branch conditions are D23 (PRESUMED, log entry 12). -/

namespace Sys2Proof.Machine

/-- `branch(cond)`, the shared operation of the eight branches: PC is past the branch, the target is relative to it, and
the extra cycles are 0, 1, or 2 across a page (R201). -/
def branch (cond : Bool) (s : State) : State × Nat :=
  if cond then
    ({ s with pc := s.pc + s.branchOffset }, if crosses s.pc (s.pc + s.branchOffset) then 2 else 1)
  else (s, 0)

/-- The operation of JMP, jump (R197): the operand address is not dereferenced. -/
def opJmp (s : State) : State × Nat :=
  ({ s with pc := target s }, 0)

/-- JMP (R197). -/
def execJmp (o : Operand) (s : State) : Host.Outcome State Fault Refusal := perform (.jmp o) opJmp s

/-- The operation of JSR, jump to subroutine (R198): it pushes the address of its own last byte, high then low. -/
def opJsr (s : State) : State × Nat :=
  ({ pushWord (s.pc - 1) s with pc := target s }, 0)

/-- JSR (R198). -/
def execJsr (o : Operand) (s : State) : Host.Outcome State Fault Refusal := perform (.jsr o) opJsr s

/-- The operation of RTS, return from subroutine (R199). -/
def opRts (s : State) : State × Nat :=
  let w := popWord s
  ({ w.2 with pc := w.1 + 1 }, 0)

/-- RTS (R199). -/
def execRts (s : State) : Host.Outcome State Fault Refusal := perform .rts opRts s

/-- The operation of RTI, return from interrupt (R200). -/
def opRti (s : State) : State × Nat :=
  (leaveHandler s, 0)

/-- RTI (R200). -/
def execRti (s : State) : Host.Outcome State Fault Refusal := perform .rti opRti s

/-- The operation of BPL, branch if plus (R202). -/
def opBpl (s : State) : State × Nat :=
  branch (!(flagN s.p)) s

/-- BPL (R202). -/
def execBpl (o : Operand) (s : State) : Host.Outcome State Fault Refusal := perform (.bpl o) opBpl s

/-- The operation of BMI, branch if minus (R203). -/
def opBmi (s : State) : State × Nat :=
  branch (flagN s.p) s

/-- BMI (R203). -/
def execBmi (o : Operand) (s : State) : Host.Outcome State Fault Refusal := perform (.bmi o) opBmi s

/-- The operation of BVC, branch if overflow clear (R204). -/
def opBvc (s : State) : State × Nat :=
  branch (!(flagV s.p)) s

/-- BVC (R204). -/
def execBvc (o : Operand) (s : State) : Host.Outcome State Fault Refusal := perform (.bvc o) opBvc s

/-- The operation of BVS, branch if overflow set (R205). -/
def opBvs (s : State) : State × Nat :=
  branch (flagV s.p) s

/-- BVS (R205). -/
def execBvs (o : Operand) (s : State) : Host.Outcome State Fault Refusal := perform (.bvs o) opBvs s

/-- The operation of BCC, branch if carry clear (R206). -/
def opBcc (s : State) : State × Nat :=
  branch (!(flagC s.p)) s

/-- BCC (R206). -/
def execBcc (o : Operand) (s : State) : Host.Outcome State Fault Refusal := perform (.bcc o) opBcc s

/-- The operation of BCS, branch if carry set (R207). -/
def opBcs (s : State) : State × Nat :=
  branch (flagC s.p) s

/-- BCS (R207). -/
def execBcs (o : Operand) (s : State) : Host.Outcome State Fault Refusal := perform (.bcs o) opBcs s

/-- The operation of BNE, branch if not equal (R208). -/
def opBne (s : State) : State × Nat :=
  branch (!(flagZ s.p)) s

/-- BNE (R208). -/
def execBne (o : Operand) (s : State) : Host.Outcome State Fault Refusal := perform (.bne o) opBne s

/-- The operation of BEQ, branch if equal (R209). -/
def opBeq (s : State) : State × Nat :=
  branch (flagZ s.p) s

/-- BEQ (R209). -/
def execBeq (o : Operand) (s : State) : Host.Outcome State Fault Refusal := perform (.beq o) opBeq s

end Sys2Proof.Machine
end

