-- ==== Sys2Proof/Machine/FlagOps.lean ====
section
/-! DEFINITION. Flag operations (48_flags.md). -/

namespace Sys2Proof.Machine

/-- The operation of CLC, clear carry (R216). -/
def opClc (s : State) : State × Nat :=
  ({ s with p := putC false s.p }, 0)

/-- CLC (R216). -/
def execClc (s : State) : Host.Outcome State Fault Refusal := perform .clc opClc s

/-- The operation of SEC, set carry (R217). -/
def opSec (s : State) : State × Nat :=
  ({ s with p := putC true s.p }, 0)

/-- SEC (R217). -/
def execSec (s : State) : Host.Outcome State Fault Refusal := perform .sec opSec s

/-- The operation of CLI, clear interrupt disable (R218). -/
def opCli (s : State) : State × Nat :=
  ({ s with p := putI false s.p }, 0)

/-- CLI (R218). -/
def execCli (s : State) : Host.Outcome State Fault Refusal := perform .cli opCli s

/-- The operation of SEI, set interrupt disable (R219). -/
def opSei (s : State) : State × Nat :=
  ({ s with p := putI true s.p }, 0)

/-- SEI (R219). -/
def execSei (s : State) : Host.Outcome State Fault Refusal := perform .sei opSei s

/-- The operation of CLD, clear decimal (R220). -/
def opCld (s : State) : State × Nat :=
  ({ s with p := putD false s.p }, 0)

/-- CLD (R220). -/
def execCld (s : State) : Host.Outcome State Fault Refusal := perform .cld opCld s

/-- The operation of SED, set decimal (R221). -/
def opSed (s : State) : State × Nat :=
  ({ s with p := putD true s.p }, 0)

/-- SED (R221). -/
def execSed (s : State) : Host.Outcome State Fault Refusal := perform .sed opSed s

/-- The operation of CLV, clear overflow (R222). -/
def opClv (s : State) : State × Nat :=
  ({ s with p := putV false s.p }, 0)

/-- CLV (R222). -/
def execClv (s : State) : Host.Outcome State Fault Refusal := perform .clv opClv s

end Sys2Proof.Machine
end

