-- ==== Sys2Proof/Machine/LoadStore.lean ====
section
/-! DEFINITION. Loads, stores and register transfers (42_load_store_transfer.md). Each `op` is the operation of the rule,
which returns the extra cycles; each `exec` is the instruction. -/

namespace Sys2Proof.Machine

/-- The operation of LDA, load accumulator (R141). -/
def opLda (s : State) : State × Nat :=
  let v := load s
  (putA v.1 v.2, penalty s)

/-- LDA (R141). -/
def execLda (o : Operand) (s : State) : Host.Outcome State Fault Refusal := perform (.lda o) opLda s

/-- The operation of LDX, load X (R142). -/
def opLdx (s : State) : State × Nat :=
  let v := load s
  (putX v.1 v.2, penalty s)

/-- LDX (R142). -/
def execLdx (o : Operand) (s : State) : Host.Outcome State Fault Refusal := perform (.ldx o) opLdx s

/-- The operation of LDY, load Y (R143). -/
def opLdy (s : State) : State × Nat :=
  let v := load s
  (putY v.1 v.2, penalty s)

/-- LDY (R143). -/
def execLdy (o : Operand) (s : State) : Host.Outcome State Fault Refusal := perform (.ldy o) opLdy s

/-- The operation of STA, store accumulator (R144): one write, no read, no flag, no penalty. -/
def opSta (s : State) : State × Nat :=
  (store s.a s, 0)

/-- STA (R144). -/
def execSta (o : Operand) (s : State) : Host.Outcome State Fault Refusal := perform (.sta o) opSta s

/-- The operation of STX, store X (R145): one write, no read, no flag, no penalty. -/
def opStx (s : State) : State × Nat :=
  (store s.x s, 0)

/-- STX (R145). -/
def execStx (o : Operand) (s : State) : Host.Outcome State Fault Refusal := perform (.stx o) opStx s

/-- The operation of STY, store Y (R146): one write, no read, no flag, no penalty. -/
def opSty (s : State) : State × Nat :=
  (store s.y s, 0)

/-- STY (R146). -/
def execSty (o : Operand) (s : State) : Host.Outcome State Fault Refusal := perform (.sty o) opSty s

/-- The operation of TAX, transfer A to X (R147). -/
def opTax (s : State) : State × Nat :=
  (putX s.a s, 0)

/-- TAX (R147). -/
def execTax (s : State) : Host.Outcome State Fault Refusal := perform .tax opTax s

/-- The operation of TAY, transfer A to Y (R148). -/
def opTay (s : State) : State × Nat :=
  (putY s.a s, 0)

/-- TAY (R148). -/
def execTay (s : State) : Host.Outcome State Fault Refusal := perform .tay opTay s

/-- The operation of TSX, transfer SP to X (R149). -/
def opTsx (s : State) : State × Nat :=
  (putX s.sp s, 0)

/-- TSX (R149). -/
def execTsx (s : State) : Host.Outcome State Fault Refusal := perform .tsx opTsx s

/-- The operation of TXA, transfer X to A (R150). -/
def opTxa (s : State) : State × Nat :=
  (putA s.x s, 0)

/-- TXA (R150). -/
def execTxa (s : State) : Host.Outcome State Fault Refusal := perform .txa opTxa s

/-- The operation of TYA, transfer Y to A (R151). -/
def opTya (s : State) : State × Nat :=
  (putA s.y s, 0)

/-- TYA (R151). -/
def execTya (s : State) : Host.Outcome State Fault Refusal := perform .tya opTya s

/-- The operation of TXS, transfer X to SP (R152), which writes no flag. -/
def opTxs (s : State) : State × Nat :=
  ({ s with sp := s.x }, 0)

/-- TXS (R152). -/
def execTxs (s : State) : Host.Outcome State Fault Refusal := perform .txs opTxs s

end Sys2Proof.Machine
end

