-- ==== Sys2Proof/Machine/Shift.lean ====
section
/-! DEFINITION. Shifts and rotates (45_shift_rotate.md). -/

namespace Sys2Proof.Machine

/-- `m * 2 mod 256`, and bit 7 as carry out (R176); the carry in is not used. -/
def aslByte (_ : Bool) (m : Byte) : Byte × Bool := (m <<< 1, m.getLsbD 7)
/-- `m div 2`, and bit 0 as carry out (R177); the carry in is not used. -/
def lsrByte (_ : Bool) (m : Byte) : Byte × Bool := (m >>> 1, m.getLsbD 0)
/-- `m * 2 mod 256` with the old carry in bit 0, and bit 7 as carry out (R178). -/
def rolByte (c : Bool) (m : Byte) : Byte × Bool := (m <<< 1 ||| (if c then 0x01 else 0x00), m.getLsbD 7)
/-- `m div 2` with the old carry in bit 7, and bit 0 as carry out (R179). -/
def rorByte (c : Bool) (m : Byte) : Byte × Bool := (m >>> 1 ||| (if c then 0x80 else 0x00), m.getLsbD 0)

/-- The shared path of the four: read through the OperandRef, set C, write the result back through it, set Z and N. -/
def modifyOperand (f : Bool → Byte → Byte × Bool) (s : State) : State :=
  let m := load s
  let r := f (flagC m.2.p) m.1
  let s1 := store r.1 { m.2 with p := putC r.2 m.2.p }
  { s1 with p := setZN r.1 s1.p }

/-- The operation of ASL, arithmetic shift left (R176). -/
def opAsl (s : State) : State × Nat :=
  (modifyOperand aslByte s, 0)

/-- ASL (R176). -/
def execAsl (o : Operand) (s : State) : Host.Outcome State Fault Refusal := perform (.asl o) opAsl s

/-- The operation of LSR, logical shift right (R177). -/
def opLsr (s : State) : State × Nat :=
  (modifyOperand lsrByte s, 0)

/-- LSR (R177). -/
def execLsr (o : Operand) (s : State) : Host.Outcome State Fault Refusal := perform (.lsr o) opLsr s

/-- The operation of ROL, rotate left through carry (R178). -/
def opRol (s : State) : State × Nat :=
  (modifyOperand rolByte s, 0)

/-- ROL (R178). -/
def execRol (o : Operand) (s : State) : Host.Outcome State Fault Refusal := perform (.rol o) opRol s

/-- The operation of ROR, rotate right through carry (R179). -/
def opRor (s : State) : State × Nat :=
  (modifyOperand rorByte s, 0)

/-- ROR (R179). -/
def execRor (o : Operand) (s : State) : Host.Outcome State Fault Refusal := perform (.ror o) opRor s

end Sys2Proof.Machine
end

