-- ==== Sys2Proof/Machine/Stack.lean ====
section
/-! DEFINITION. Stack instructions (43_stack.md). -/

namespace Sys2Proof.Machine

/-- The operation of PHA, push accumulator (R156). -/
def opPha (s : State) : State × Nat :=
  (push s.a s, 0)

/-- PHA (R156). -/
def execPha (s : State) : Host.Outcome State Fault Refusal := perform .pha opPha s

/-- The operation of PHP, push processor status (R157); the live P is unchanged. -/
def opPhp (s : State) : State × Nat :=
  (push (pushedPsw s.p) s, 0)

/-- PHP (R157). -/
def execPhp (s : State) : Host.Outcome State Fault Refusal := perform .php opPhp s

/-- The operation of PLA, pull accumulator (R158). -/
def opPla (s : State) : State × Nat :=
  let v := pop s
  (putA v.1 v.2, 0)

/-- PLA (R158). -/
def execPla (s : State) : Host.Outcome State Fault Refusal := perform .pla opPla s

/-- The operation of PLP, pull processor status (R159); B and U keep their live values. -/
def opPlp (s : State) : State × Nat :=
  let v := pop s
  ({ v.2 with p := pulledP v.2.p v.1 }, 0)

/-- PLP (R159). -/
def execPlp (s : State) : Host.Outcome State Fault Refusal := perform .plp opPlp s

end Sys2Proof.Machine
end

