-- ==== Sys2Proof/Machine/System.lean ====
section
/-! DEFINITION. BRK, NOP and the undocumented do-nothing operation (49_system.md). -/

namespace Sys2Proof.Machine

/-- The operation of BRK, software interrupt (R226): PC, past the opcode, skips the padding byte; the pushed P has B = 1 and U = 1. -/
def opBrk (s : State) : State × Nat :=
  (enterHandler vectorIrq (pushedPsw s.p) { s with pc := s.pc + 1 }, 0)

/-- BRK (R226). -/
def execBrk (s : State) : Host.Outcome State Fault Refusal := perform .brk opBrk s

/-- The operation of NOP, no operation (R227). -/
def opNop (s : State) : State × Nat :=
  (s, 0)

/-- NOP (R227). -/
def execNop (s : State) : Host.Outcome State Fault Refusal := perform .nop opNop s

/-- The operation XXX, "do nothing" (R228). -/
def opXxx (s : State) : State × Nat := (s, 0)

/-- One of the 104 undocumented opcodes: no effect beyond its cycles, which are `UNDOC_CYCLES` (R91, R228). -/
def execXxx (op : Byte) (s : State) : Host.Outcome State Fault Refusal := perform (.xxx op) opXxx s

end Sys2Proof.Machine
end

