-- ==== Sys2Proof/Machine/Execute.lean ====
section
/-! DEFINITION. `OPERATION[desc.operation]`: the table from operation identifiers to operations, and `execute()`
(40_fetch_execute.md R106). -/

namespace Sys2Proof.Machine

/-- The operation that an identifier names (30_encoding.md R85). -/
def operationOf : Operation → State → State × Nat
  | .adc => opAdc
  | .and => opAnd
  | .asl => opAsl
  | .bcc => opBcc
  | .bcs => opBcs
  | .beq => opBeq
  | .bit => opBit
  | .bmi => opBmi
  | .bne => opBne
  | .bpl => opBpl
  | .brk => opBrk
  | .bvc => opBvc
  | .bvs => opBvs
  | .clc => opClc
  | .cld => opCld
  | .cli => opCli
  | .clv => opClv
  | .cmp => opCmp
  | .cpx => opCpx
  | .cpy => opCpy
  | .dec => opDec
  | .dex => opDex
  | .dey => opDey
  | .eor => opEor
  | .inc => opInc
  | .inx => opInx
  | .iny => opIny
  | .jmp => opJmp
  | .jsr => opJsr
  | .lda => opLda
  | .ldx => opLdx
  | .ldy => opLdy
  | .lsr => opLsr
  | .nop => opNop
  | .ora => opOra
  | .pha => opPha
  | .php => opPhp
  | .pla => opPla
  | .plp => opPlp
  | .rol => opRol
  | .ror => opRor
  | .rti => opRti
  | .rts => opRts
  | .sbc => opSbc
  | .sec => opSec
  | .sed => opSed
  | .sei => opSei
  | .sta => opSta
  | .stx => opStx
  | .sty => opSty
  | .tax => opTax
  | .tay => opTay
  | .tsx => opTsx
  | .txa => opTxa
  | .txs => opTxs
  | .tya => opTya
  | .xxx => opXxx

/-- `execute()`: run the operation of the descriptor in flight (R106). Without a descriptor there is none to run (log entry
25). -/
def execute (s : State) : Host.Outcome State Fault Refusal :=
  match s.desc with
  | some d => .next (executeOp (operationOf d.operation) s)
  | none => .fault .noDescriptor

end Sys2Proof.Machine
end

