-- ==== Sys2Proof/Machine/Interface.lean ====
section
/-! DEFINITION. The core's interface, one operation per call (40_fetch_execute.md R101 to R116), with RESET
(70_reset_and_hazards.md R261 to R264), IRQ and NMI (60_exceptions.md R234 to R240), and the cycle-granular view (R103). -/

namespace Sys2Proof.Machine

/-- The outcome type of every call. -/
abbrev CallResult := Host.Outcome State Fault Refusal

/-- Every call but `connect` is refused before `connect` (R113, D19). -/
def whenConnected (s : State) (answer : CallResult) : CallResult :=
  match s.bus with
  | some _ => answer
  | none => .refused .notConnected

/-! ## RESET, connect, IRQ, NMI -/

/-- `reset()` (R261): registers to their RESET values, the vector read low byte first, the transient state cleared, 8 cycles
to wait. It writes no memory, and it discards an instruction in flight (D30, D32). -/
def resetEntry (s : State) : State :=
  let s1 := { s with a := 0x00, x := 0x00, y := 0x00, sp := 0xFD, p := 0x34 }
  let w := busReadWord s1 vectorReset (vectorReset + 1)
  { clearTransient { w.2 with pc := w.1 } with remainingCycles := 8 }

/-- `interrupt_entry(v)` (R234): the entry with B = 0 in the pushed P, the transient state cleared, 7 cycles to wait in place
of any count left (D29). -/
def interruptEntry (vector : Addr) (s : State) : State :=
  { clearTransient (enterHandler vector (pushedPhw s.p) s) with remainingCycles := 7 }

/-- `connect(bus)` (R102, R264): install the bus with `MEM_INIT` in it, no cycle elapsed, and the power-on RESET. -/
def callConnect (b : Bus) (memInit : List (Addr × Byte)) (s : State) : CallResult :=
  match s.bus with
  | some _ => .refused .alreadyConnected
  | none =>
    .next (resetEntry { s with
      bus := some b
      mem := memInit.foldl (fun m c => memPut (some b) m c.1 c.2) []
      cyclesElapsed := 0
      busTime := 0 })

/-- `reset()`, admitted at any time after `connect` (R261). -/
def callReset (s : State) : CallResult := whenConnected s (.next (resetEntry s))

/-- `irq()`: refused in the middle of an instruction, ignored and not recorded while I = 1, else taken at once (R234,
R235, R240). -/
def callIrq (s : State) : CallResult :=
  whenConnected s
    (if s.inFlight then .refused .midInstructionInterrupt
     else if flagI s.p then .next s
     else .next (interruptEntry vectorIrq s))

/-- `nmi()`: as IRQ, but not masked, through its own vector (R236, R240). -/
def callNmi (s : State) : CallResult :=
  whenConnected s
    (if s.inFlight then .refused .midInstructionInterrupt else .next (interruptEntry vectorNmi s))

/-! ## Snapshots and the memory pass-through -/

/-- The architectural snapshot (10_state.md R44). -/
def getState (s : State) : Snapshot :=
  { pc := s.pc, sp := s.sp, a := s.a, x := s.x, y := s.y, p := s.p }

/-- The six registers from a snapshot, "and nothing else" (R110). -/
def putState (r : Snapshot) (s : State) : State :=
  { s with pc := r.pc, sp := r.sp, a := r.a, x := r.x, y := r.y, p := r.p }

/-- `get_state()`, admitted at any time after `connect` (R110). -/
def callGetState (s : State) : CallResult :=
  whenConnected s (.next { s with reply := some (.snapshot (getState s)) })

/-- `set_state(r)`, refused in the middle of an instruction (R110, R113, D11). -/
def callSetState (r : Snapshot) (s : State) : CallResult :=
  whenConnected s (if s.inFlight then .refused .midInstructionSetState else .next (putState r s))

/-- `read_memory(a)`: one bus read, its byte handed back (R111). -/
def callReadMemory (a : Addr) (s : State) : CallResult :=
  whenConnected s (.next { (busRead s a).2 with reply := some (.byte (busRead s a).1) })

/-- `write_memory(a, v)`: one bus write, the bus's result handed back (R111). -/
def callWriteMemory (a : Addr) (v : Byte) (s : State) : CallResult :=
  whenConnected s (.next { busWrite s a v with reply := some (.taken (busTakes s a)) })

/-! ## The cycle-granular view (R103 to R105) -/

/-- `fetch_and_resolve()` (R105). -/
def fetchAndResolve (s : State) : State :=
  let op := fetchByte s
  let o := fetchOperand (descriptor op.1).mode op.2
  resolve o.1 (enter op.1 o.2)

/-- The state of a `run_cycle` after its fetch, if any, and its decrement (R103). -/
def beforeExecute (s : State) : State :=
  let s1 := { s with cyclesElapsed := s.cyclesElapsed + 1 }
  let s2 := if s1.remainingCycles = 0 ∧ s1.inFlight = false then fetchAndResolve s1 else s1
  { s2 with remainingCycles := s2.remainingCycles - 1 }

/-- Whether the `run_cycle` made now runs an operation (R103, R109). -/
def runsOperation (s : State) : Bool :=
  (beforeExecute s).remainingCycles == 0 && (beforeExecute s).inFlight

/-- `run_cycle()` on a connected core (R103). -/
def runCycle (s : State) : CallResult :=
  if runsOperation s then execute (beforeExecute s) else .next (beforeExecute s)

/-- `run_cycle()` (R103, R113). -/
def callRunCycle (s : State) : CallResult := whenConnected s (runCycle s)

/-- `run_instruction()` as the loop of R109, at most `fuel` cycles of it. `executed`: an operation has run during this
call. It hands back nothing. -/
def runLoop : Nat → Bool → State → CallResult
  | 0, _, s => .next s
  | fuel + 1, executed, s =>
    match runCycle s with
    | .next t =>
      if (executed || runsOperation s) && t.remainingCycles == 0 then .next t
      else runLoop fuel (executed || runsOperation s) t
    | .fault r => .fault r
    | .refused r => .refused r

/-! ## The instruction-level view (R109, R114) -/

/-- The number of cycles run since `s` is handed back (R109). -/
def reportCycles (s t : State) : State :=
  { t with reply := some (.cycles (t.cyclesElapsed - s.cyclesElapsed)) }

/-- The instruction in flight finishes: its remaining cycles, at least one, its operation, its extra cycles (R103, R109). -/
def finishInFlight (s : State) : CallResult :=
  match s.desc with
  | some d =>
    .next (passCycles (retire (operationOf d.operation) { s with remainingCycles := max 1 s.remainingCycles }))
  | none => .fault .noDescriptor

/-- From a boundary: the cycles left over pass, an instruction is fetched and executed, and its extra cycles pass (R109,
R114). -/
def runFromBoundary (s : State) : CallResult :=
  match exec (fetch (passCycles s)).1 (fetch (passCycles s)).2 with
  | .next t => .next (passCycles t)
  | .fault r => .fault r
  | .refused r => .refused r

/-- `run_instruction()` as one composition, which R114 allows for the loop of R109 (log entry 1). -/
def runInstruction (s : State) : CallResult :=
  match (if s.inFlight then finishInFlight s else runFromBoundary s) with
  | .next t => .next (reportCycles s t)
  | .fault r => .fault r
  | .refused r => .refused r

/-- `run_instruction()` (R109, R113). -/
def callRunInstruction (s : State) : CallResult := whenConnected s (runInstruction s)

/-! ## The calls -/

/-- One call of the interface (R101, R116). -/
def hostCall (c : HostCall) (s : State) : CallResult :=
  match c with
  | .connect b memInit => callConnect b memInit s
  | .runCycle => callRunCycle s
  | .runInstruction => callRunInstruction s
  | .getState => callGetState s
  | .setState r => callSetState r s
  | .readMemory a => callReadMemory a s
  | .writeMemory a v => callWriteMemory a v s
  | .reset => callReset s
  | .irq => callIrq s
  | .nmi => callNmi s

/-- The bus port and the reply are clear at the start of a step (log entry 28). -/
def clearPorts (s : State) : State := { s with busLog := [], reply := none }

/-- What one step does: the next call the host has listed, or `run_instruction()` when it has listed none (log entries 1
and 2). -/
def hostStep (s : State) : CallResult :=
  match s.hostCalls with
  | [] => callRunInstruction (clearPorts s)
  | c :: cs => hostCall c (clearPorts { s with hostCalls := cs })

/-- The state with three bytes at the PC, on `FlatRAM64K`, with no instruction in flight and no call listed, so that the
next step fetches them (log entry 3). -/
def placeAtPc (s : State) (b0 b1 b2 : Byte) : State :=
  { s with
    bus := some .flatRam
    inFlight := false
    hostCalls := []
    mem := memWrite (memWrite (memWrite s.mem s.pc.toNat b0) (s.pc + 1).toNat b1) (s.pc + 2).toNat b2 }

end Sys2Proof.Machine
end

