-- ==== Sys2Proof/Machine/Step.lean ====
section
/-! DEFINITION. One step of the machine, and placing an instruction where the next step fetches it. -/

namespace Sys2Proof.Machine

/-- One step: the host's next call, or `run_instruction()` (log entries 1 and 2). -/
def step : State → Host.Outcome State Fault Refusal := hostStep

/-- `s` with the instruction whose bits are `w` stored at the PC (log entry 3). -/
def State.withFetchWord (s : State) (nbits w : Nat) : State :=
  placeAtPc s (tableByte nbits w 0) (tableByte nbits w 1) (tableByte nbits w 2)

end Sys2Proof.Machine
end

