-- ==== Sys2Proof/Safety.lean ====
section
/-! DEFINITION. What the statements say about a run: the states that runs stay in, and what it is for an instruction to
complete. -/

namespace Sys2Proof.Machine

/-! ## The states that runs stay in -/

/-- The OperandRef has the shape its mode gives: `REG_A` for IMP, ACC and REL, an address for every other mode
(41_addressing_modes.md R136). -/
def refFits (m : Mode) (r : OperandRef) : Bool :=
  match m, r with
  | .imp, .regA | .acc, .regA | .rel, .regA => true
  | .imp, .mem _ | .acc, .mem _ | .rel, .mem _ => false
  | _, .mem _ => true
  | _, .regA => false

/-- Only modes ABX, ABY and IZY compute the page-cross condition (R42, R135). -/
def mayCross (m : Mode) : Bool := m == .abx || m == .aby || m == .izy

/-- An instruction in flight has at least one cycle left (R103), the descriptor of its opcode, an OperandRef of its mode's
shape, and a page cross or a branch offset only where its mode sets one (R42). -/
def flightOk (s : State) : Bool :=
  !s.inFlight ||
    (decide (1 ≤ s.remainingCycles) && s.desc == some (descriptor s.opcode) &&
      refFits (descriptor s.opcode).mode s.operandRef &&
      (!s.pageCrossed || mayCross (descriptor s.opcode).mode) &&
      (s.branchOffset == 0 || (descriptor s.opcode).mode == .rel))

/-- The invariant of the machine: the RAM is in canonical form and fits the bus, and what is in flight is coherent. -/
abbrev Coherent (s : State) : Prop := memWf s.bus s.mem = true ∧ flightOk s = true

/-- `connect` has been called (R113). -/
abbrev Connected (s : State) : Prop := s.bus.isSome = true

/-! ## Completing -/

/-- The state in which the operation of `i` runs when `exec i` starts in `s`: decoded, resolved, its base cycles passed
(R104, R105). -/
def atOperation (i : Instr) (s : State) : State := passCycles (resolve i.operand (enter (i.opcode.getD 0) s))

/-- The byte that `Load(operand_ref)` returns to the operation of `i` (R40). -/
def operandByte (i : Instr) (s : State) : Byte := (load (atOperation i s)).1

/-- The base cycles of `i` in the opcode table (R84). -/
def baseCyclesOf (i : Instr) : Nat := (descriptor (i.opcode.getD 0)).baseCycles

/-- What RAM byte `k` holds after a list of bus writes, the first one made first, when it held `old` before them. A write
reaches byte `k` when `k` stands behind its address on the bus. -/
def byteAfter (b : Option Bus) (writes : List (Addr × Byte)) (k : Nat) (old : Byte) : Byte :=
  writes.foldl (fun v w => if backing b w.1 = some k then w.2 else v) old

/-- EVERY byte of memory in `t` is what the writes leave of it in `s`: bytes that no write reaches are as before. -/
def memoryAfter (writes : List (Addr × Byte)) (s t : State) : Prop :=
  ∀ k, memRead t.mem k = byteAfter s.bus writes k (memRead s.mem k)

/-- No instruction changes the build parameters, the bus, the host's calls or what the last call handed back. -/
def sameOutside (s t : State) : Prop :=
  t.cfg = s.cfg ∧ t.bus = s.bus ∧ t.hostCalls = s.hostCalls ∧ t.reply = s.reply

/-- `exec i s` ANSWERS A NEXT STATE `t` in which the six registers are `r` (so every register that `r` takes over from
`getState s` is unchanged), memory is what `writes` leave of it, the instruction is finished, its base cycles have passed,
`extra` cycles remain (R106), and nothing outside has changed. -/
def Completes (i : Instr) (s : State) (r : Snapshot) (writes : List (Addr × Byte)) (extra : Nat) : Prop :=
  ∃ t, exec i s = .next t ∧ getState t = r ∧ memoryAfter writes s t ∧ sameOutside s t ∧
    t.inFlight = false ∧ t.cyclesElapsed = s.cyclesElapsed + baseCyclesOf i ∧ t.remainingCycles = extra

/-- The bus writes of a store through the OperandRef of `i`: one for `MEM(a)`, none for `REG_A` (R40). -/
def storeWrites (i : Instr) (s : State) (v : Byte) : List (Addr × Byte) :=
  match (atOperation i s).operandRef with
  | .mem a => [(a, v)]
  | .regA => []

/-- The accumulator after a store of `v` through the OperandRef of `i`: `v` for `REG_A`, unchanged for `MEM(a)` (R40). -/
def storeA (i : Instr) (s : State) (v : Byte) : Byte :=
  match (atOperation i s).operandRef with
  | .mem _ => s.a
  | .regA => v

/-! ## What the bus shows -/

/-- The byte that `FlatRAM64K` holds at an address (20_memory.md R55). -/
def ramAt (s : State) (a : Addr) : Byte := memRead s.mem a.toNat

/-- The byte that a bus read of `a` returns when `n` more transactions have been made and none of them wrote the RAM byte
behind `a`. On a bus without devices `n` plays no part. -/
def peekAt (n : Nat) (s : State) (a : Addr) : Byte := busPeek { s with busTime := s.busTime + n } a

/-- A transaction's kind (true for a write) and its address. -/
def txnShape : Txn → Bool × Addr
  | .read a _ => (false, a)
  | .write a _ => (true, a)

/-- The kinds and addresses of the transactions at the bus port. -/
def busShape (s : State) : List (Bool × Addr) := s.busLog.map txnShape

/-- The transactions of an access through the OperandRef: at the address of `MEM(a)`, none for `REG_A` (R62). -/
def refShape (kinds : List Bool) (s : State) : List (Bool × Addr) :=
  match s.operandRef with
  | .mem a => kinds.map (fun k => (k, a))
  | .regA => []

/-- The transactions of the operation of `i` in the state `u` it runs in, as the table of 20_memory.md R62 lists them. -/
def operationShape (i : Instr) (u : State) : List (Bool × Addr) :=
  match i.operation with
  | .lda | .ldx | .ldy | .and | .ora | .eor | .adc | .sbc | .cmp | .cpx | .cpy | .bit => refShape [false] u
  | .sta | .stx | .sty => refShape [true] u
  | .asl | .lsr | .rol | .ror | .inc | .dec => refShape [false, true] u
  | .pha | .php => [(true, stackAddr u.sp)]
  | .pla | .plp => [(false, stackAddr (u.sp + 1))]
  | .jsr => [(true, stackAddr u.sp), (true, stackAddr (u.sp - 1))]
  | .rts => [(false, stackAddr (u.sp + 1)), (false, stackAddr (u.sp + 2))]
  | .rti => [(false, stackAddr (u.sp + 1)), (false, stackAddr (u.sp + 2)), (false, stackAddr (u.sp + 3))]
  | .brk =>
    [(true, stackAddr u.sp), (true, stackAddr (u.sp - 1)), (true, stackAddr (u.sp - 2)), (false, 0xFFFE), (false, 0xFFFF)]
  | .jmp | .bcc | .bcs | .beq | .bmi | .bne | .bpl | .bvc | .bvs | .clc | .cld | .cli | .clv | .sec | .sed | .sei
  | .tax | .tay | .tsx | .txa | .txs | .tya | .inx | .iny | .dex | .dey | .nop | .xxx => []

/-- The reads that fetch `i` at the PC: its bytes in order, but not the literal of IMM, which the operation reads (R62, R123). -/
def fetchReads (i : Instr) (s : State) : List Txn :=
  (List.range (if i.operand.mode = .imm then 1 else (encode i).length)).map
    (fun n => .read (s.pc + BitVec.ofNat 16 n) (peekAt n s (s.pc + BitVec.ofNat 16 n)))

/-- The state in which `step` runs `exec i`, when it fetched `i` at a boundary of `s`: ports clear, waiting cycles passed, PC
past the instruction's bytes, and their reads at the bus port. -/
def afterFetch (i : Instr) (s : State) : State :=
  { s with
    pc := s.pc + BitVec.ofNat 16 (encode i).length
    cyclesElapsed := s.cyclesElapsed + s.remainingCycles
    remainingCycles := 0
    busTime := s.busTime + (fetchReads i s).length
    busLog := fetchReads i s
    reply := none }

/-! ## Handlers -/

/-- The three writes of an entry that pushes the image `image` of P, the first one first (R226, R234). -/
def entryWrites (s : State) (ret : Addr) (image : Byte) : List (Addr × Byte) :=
  [(stackAddr s.sp, hi ret), (stackAddr (s.sp - 1), lo ret), (stackAddr (s.sp - 2), image)]

/-- The word that an entry loads from a vector after its three pushes, the low byte first (R237). -/
def vectorWord (vector : Addr) (s : State) : Addr := w16 (peekAt 4 s (vector + 1)) (peekAt 3 s vector)

/-- `t` is the state right after `interrupt_entry(vector)` in `s` (60_exceptions.md R234). -/
def InterruptEntered (vector : Addr) (s t : State) : Prop :=
  getState t = { getState s with pc := vectorWord vector s, sp := s.sp - 3, p := putI true s.p } ∧
  memoryAfter (entryWrites s s.pc (pushedPhw s.p)) s t ∧ sameOutside s t ∧
  busShape t = busShape s ++ [(true, stackAddr s.sp), (true, stackAddr (s.sp - 1)), (true, stackAddr (s.sp - 2)),
    (false, vector), (false, vector + 1)] ∧
  t.inFlight = false ∧ t.desc = none ∧ t.pageCrossed = false ∧ t.branchOffset = 0 ∧ t.operandRef = .regA ∧
  t.opcode = 0x00 ∧ t.remainingCycles = 7 ∧ t.cyclesElapsed = s.cyclesElapsed

end Sys2Proof.Machine
end

