-- ==== Sys2Proof/Certificates/Slice0/Obligations.lean ====
section
/-! DEFINITION. The statements about the model, from the spec's numbered rules. -/

open Sys2Proof Sys2Proof.Machine

/-! ## Encoding (30_encoding.md) -/

/-- R82, R88: the bytes of every well-formed instruction decode to it, with every operand, whatever follows. -/
def Obligations.EncodedInstructionDecodesToItself : Prop :=
  ∀ (i : Instr) (rest : List Byte), i.wf = true → decode (encode i ++ rest) = .ok (i, rest)

/-- R81, R82, R87: what the decoder reads is well-formed, and encoding it gives back the very bytes read. -/
def Obligations.DecodedBytesEncodeBack : Prop :=
  ∀ (bs : List Byte) (i : Instr) (rest : List Byte), decode bs = .ok (i, rest) → i.wf = true ∧ encode i ++ rest = bs

/-- R83, R81: every opcode decodes, and it alone fixes the length: 1 for IMP and ACC, 3 for ABS, ABX, ABY and IND, else 2; an
XXX opcode has length 1 and 0xEB length 2 (log entry 16). ACC is log entry 13. -/
def Obligations.LengthIsFixedByOpcode : Prop :=
  ∀ (op b1 b2 : Byte) (rest : List Byte),
    (∃ i, decode (op :: b1 :: b2 :: rest) =
      .ok (i, (op :: b1 :: b2 :: rest).drop
        (if (descriptor op).mode ∈ [Mode.imp, .acc] then 1
         else if (descriptor op).mode ∈ [Mode.abs, .abx, .aby, .ind] then 3 else 2))) ∧
    (op ∈ undocumented → (descriptor op).mode ∈ [Mode.imp, .acc]) ∧ (descriptor 0xEB).mode = .imm

/-- R84, R89: 256 descriptors with 2 to 8 base cycles; 151 documented opcodes, 0xEB, and 104 XXX; where ACC, IND, REL and ZPY
stand. The count 151 and where the modes stand come from the PRESUMED opcode map, which the spec gives from general knowledge
(log entry 11); ACC is log entry 13, and 0xEB and the XXX opcodes are log entry 16. -/
def Obligations.DecodeTableShape : Prop :=
  opcodeMap.length = 256 ∧
  (∀ op : Byte, 2 ≤ (descriptor op).baseCycles ∧ (descriptor op).baseCycles ≤ 8) ∧
  ((List.range 256).filter (fun n => (descriptor (BitVec.ofNat 8 n)).mnemonic != "???")).length = 151 ∧
  ((List.range 256).filter (fun n => (descriptor (BitVec.ofNat 8 n)).operation == .xxx)).length = 104 ∧
  (∀ op : Byte, (descriptor op).mnemonic = "???" ↔ op = 0xEB ∨ (descriptor op).operation = .xxx) ∧
  (∀ op : Byte, (descriptor op).mode = .acc ↔ op ∈ [(0x0A : Byte), 0x2A, 0x4A, 0x6A]) ∧
  (∀ op : Byte, (descriptor op).mode = .ind ↔ op = 0x6C) ∧
  (∀ op : Byte, (descriptor op).mode = .rel ↔ op ∈ [(0x10 : Byte), 0x30, 0x50, 0x70, 0x90, 0xB0, 0xD0, 0xF0]) ∧
  (∀ op : Byte, (descriptor op).mode = .zpy ↔ op ∈ [(0x96 : Byte), 0xB6])

/-- R87, R90, 95_test_vectors.md: nine words decode to the instructions they stand for. The source pins the opcodes 0xA9,
0x69, 0xE9, 0xF0, 0x6C, 0x20 and 0x60; that 0xEA is NOP comes from the PRESUMED opcode map (log entry 11), and that 0xEB is
SBC in mode IMM is the spec's decision D7 (log entry 16). -/
def Obligations.WordsOfTheSourceDecode : Prop :=
  decode [0xA9, 0x00] = .ok (.lda (.imm 0x00), []) ∧ decode [0x69, 0x50] = .ok (.adc (.imm 0x50), []) ∧
  decode [0xE9, 0xB0] = .ok (.sbc (.imm 0xB0), []) ∧ decode [0xF0, 0x04] = .ok (.beq (.rel 0x04), []) ∧
  decode [0x6C, 0xFF, 0x30] = .ok (.jmp (.ind 0x30FF), []) ∧ decode [0x20, 0x10, 0x90] = .ok (.jsr (.abs 0x9010), []) ∧
  decode [0x60] = .ok (.rts, []) ∧ decode [0xEA] = .ok (.nop, []) ∧ decode [0xEB, 0x03] = .ok (.sbcEB (.imm 0x03), [])

/-! ## The operand resolver (41_addressing_modes.md), on every bus -/

/-- R121, R122, R123: IMP and ACC consume no byte and give `REG_A`; IMM gives the address of its literal and passes over it;
none of them reads anything but the opcode. ACC is log entry 13; that the resolver does not read the literal is log entry 15.
-/
def Obligations.ImpliedAccumulatorImmediateModes : Prop :=
  ∀ s : State,
    ((descriptor (peekAt 0 s s.pc)).mode = .imp ∨ (descriptor (peekAt 0 s s.pc)).mode = .acc →
      (fetchAndResolve s).operandRef = .regA ∧ (fetchAndResolve s).pc = s.pc + 1) ∧
    ((descriptor (peekAt 0 s s.pc)).mode = .imm →
      (fetchAndResolve s).operandRef = .mem (s.pc + 1) ∧ (fetchAndResolve s).pc = s.pc + 2) ∧
    ((descriptor (peekAt 0 s s.pc)).mode ∈ [Mode.imp, .acc, .imm] →
      (fetchAndResolve s).pageCrossed = false ∧
      (fetchAndResolve s).busLog = s.busLog ++ [.read s.pc (peekAt 0 s s.pc)])

/-- R124, R125, R126: the zero-page modes; an index wraps modulo 256 inside page 0. -/
def Obligations.ZeroPageModes : Prop :=
  ∀ s : State,
    ((descriptor (peekAt 0 s s.pc)).mode = .zp0 →
      (fetchAndResolve s).operandRef = .mem (BitVec.ofNat 16 (peekAt 1 s (s.pc + 1)).toNat)) ∧
    ((descriptor (peekAt 0 s s.pc)).mode = .zpx →
      (fetchAndResolve s).operandRef = .mem (BitVec.ofNat 16 (((peekAt 1 s (s.pc + 1)).toNat + s.x.toNat) % 256))) ∧
    ((descriptor (peekAt 0 s s.pc)).mode = .zpy →
      (fetchAndResolve s).operandRef = .mem (BitVec.ofNat 16 (((peekAt 1 s (s.pc + 1)).toNat + s.y.toNat) % 256))) ∧
    ((descriptor (peekAt 0 s s.pc)).mode ∈ [Mode.zp0, .zpx, .zpy] →
      (fetchAndResolve s).pageCrossed = false ∧ (fetchAndResolve s).pc = s.pc + 2 ∧
      (fetchAndResolve s).busLog =
        s.busLog ++ [.read s.pc (peekAt 0 s s.pc), .read (s.pc + 1) (peekAt 1 s (s.pc + 1))])

/-- R127: REL sign-extends its operand byte into the branch offset, -128 to +127 modulo 65536. -/
def Obligations.RelativeMode : Prop :=
  ∀ s : State, (descriptor (peekAt 0 s s.pc)).mode = .rel →
    (fetchAndResolve s).branchOffset =
      BitVec.ofNat 16 (if (peekAt 1 s (s.pc + 1)).toNat < 128 then (peekAt 1 s (s.pc + 1)).toNat
        else (peekAt 1 s (s.pc + 1)).toNat + 0xFF00) ∧
    (fetchAndResolve s).operandRef = .regA ∧ (fetchAndResolve s).pageCrossed = false ∧
    (fetchAndResolve s).pc = s.pc + 2 ∧
    (fetchAndResolve s).busLog = s.busLog ++ [.read s.pc (peekAt 0 s s.pc), .read (s.pc + 1) (peekAt 1 s (s.pc + 1))]

/-- R128, R129, R130: the absolute modes; an index wraps modulo 65536, and a page is crossed when the high byte changes. -/
def Obligations.AbsoluteModes : Prop :=
  ∀ (s : State) (base : Nat),
    base = (peekAt 2 s (s.pc + 2)).toNat * 256 + (peekAt 1 s (s.pc + 1)).toNat →
    ((descriptor (peekAt 0 s s.pc)).mode = .abs →
      (fetchAndResolve s).operandRef = .mem (BitVec.ofNat 16 base) ∧ (fetchAndResolve s).pageCrossed = false) ∧
    ((descriptor (peekAt 0 s s.pc)).mode = .abx →
      (fetchAndResolve s).operandRef = .mem (BitVec.ofNat 16 ((base + s.x.toNat) % 65536)) ∧
      (fetchAndResolve s).pageCrossed = decide ((base + s.x.toNat) % 65536 / 256 ≠ base / 256)) ∧
    ((descriptor (peekAt 0 s s.pc)).mode = .aby →
      (fetchAndResolve s).operandRef = .mem (BitVec.ofNat 16 ((base + s.y.toNat) % 65536)) ∧
      (fetchAndResolve s).pageCrossed = decide ((base + s.y.toNat) % 65536 / 256 ≠ base / 256)) ∧
    ((descriptor (peekAt 0 s s.pc)).mode ∈ [Mode.abs, .abx, .aby] →
      (fetchAndResolve s).pc = s.pc + 3 ∧
      (fetchAndResolve s).busLog =
        s.busLog ++ [.read s.pc (peekAt 0 s s.pc), .read (s.pc + 1) (peekAt 1 s (s.pc + 1)),
          .read (s.pc + 2) (peekAt 2 s (s.pc + 2))])

/-- R131: IND reads its target's high byte from the SAME page as the low byte, the page-boundary bug. That the low byte is
read first is log entry 18. -/
def Obligations.IndirectModeStaysInPage : Prop :=
  ∀ (s : State) (ptr ptr' : Addr), (descriptor (peekAt 0 s s.pc)).mode = .ind →
    ptr.toNat = (peekAt 2 s (s.pc + 2)).toNat * 256 + (peekAt 1 s (s.pc + 1)).toNat →
    ptr'.toNat = (if ptr.toNat % 256 = 0xFF then ptr.toNat - 0xFF else ptr.toNat + 1) →
      (fetchAndResolve s).operandRef =
        .mem (BitVec.ofNat 16 ((peekAt 4 s ptr').toNat * 256 + (peekAt 3 s ptr).toNat)) ∧
      (fetchAndResolve s).pageCrossed = false ∧ (fetchAndResolve s).pc = s.pc + 3 ∧
      (fetchAndResolve s).busLog =
        s.busLog ++ [.read s.pc (peekAt 0 s s.pc), .read (s.pc + 1) (peekAt 1 s (s.pc + 1)),
          .read (s.pc + 2) (peekAt 2 s (s.pc + 2)), .read ptr (peekAt 3 s ptr), .read ptr' (peekAt 4 s ptr')]

/-- R132, R133: the zero-page pointer modes; the pointer wraps inside page 0, and IZY indexes the pointed address. -/
def Obligations.ZeroPagePointerModes : Prop :=
  ∀ (s : State) (d : Nat) (z z' y y' : Addr), d = (peekAt 1 s (s.pc + 1)).toNat →
    z.toNat = (d + s.x.toNat) % 256 → z'.toNat = (d + s.x.toNat + 1) % 256 → y.toNat = d → y'.toNat = (d + 1) % 256 →
    ((descriptor (peekAt 0 s s.pc)).mode = .izx →
      (fetchAndResolve s).operandRef = .mem (BitVec.ofNat 16 ((peekAt 3 s z').toNat * 256 + (peekAt 2 s z).toNat)) ∧
      (fetchAndResolve s).pageCrossed = false ∧ (fetchAndResolve s).pc = s.pc + 2 ∧
      (fetchAndResolve s).busLog =
        s.busLog ++ [.read s.pc (peekAt 0 s s.pc), .read (s.pc + 1) (peekAt 1 s (s.pc + 1)), .read z (peekAt 2 s z),
          .read z' (peekAt 3 s z')]) ∧
    ((descriptor (peekAt 0 s s.pc)).mode = .izy →
      (fetchAndResolve s).operandRef =
        .mem (BitVec.ofNat 16 (((peekAt 3 s y').toNat * 256 + (peekAt 2 s y).toNat + s.y.toNat) % 65536)) ∧
      (fetchAndResolve s).pageCrossed =
        decide (((peekAt 3 s y').toNat * 256 + (peekAt 2 s y).toNat + s.y.toNat) % 65536 / 256 ≠ (peekAt 3 s y').toNat) ∧
      (fetchAndResolve s).pc = s.pc + 2 ∧
      (fetchAndResolve s).busLog =
        s.busLog ++ [.read s.pc (peekAt 0 s s.pc), .read (s.pc + 1) (peekAt 1 s (s.pc + 1)), .read y (peekAt 2 s y),
          .read y' (peekAt 3 s y')])

/-- R134: on every bus the fetch and the resolver write no memory and no register but PC. -/
def Obligations.ResolverWritesOnlyPc : Prop :=
  ∀ s : State, getState (fetchAndResolve s) = { getState s with pc := (fetchAndResolve s).pc } ∧
    (fetchAndResolve s).mem = s.mem ∧ sameOutside s (fetchAndResolve s) ∧
    ∃ reads, (fetchAndResolve s).busLog = s.busLog ++ reads ∧ ∀ r ∈ reads, (txnShape r).1 = false

/-- R136, R40, R127, R135, for `exec`, where PC is already past the instruction: the OperandRef, the branch offset and the
page-cross mark of every operand form, on every bus, and the byte a load through it gives. That the operation itself reads the
literal of IMM is log entry 15, and that a pointer's low byte is read first is log entry 18. -/
def Obligations.OperandReferenceOfEveryForm : Prop :=
  ∀ (i : Instr) (s : State), i.wf = true →
    (atOperation i s).operandRef =
      (match i.operand with
       | .imp | .acc | .rel _ => .regA
       | .imm _ => .mem (s.pc - 1)
       | .zp0 d => .mem (zext16 d)
       | .zpx d => .mem (zext16 (d + s.x))
       | .zpy d => .mem (zext16 (d + s.y))
       | .abs w => .mem w
       | .abx w => .mem (w + zext16 s.x)
       | .aby w => .mem (w + zext16 s.y)
       | .ind w => .mem (w16 (peekAt 1 s (if lo w = 0xFF then w - 0xFF else w + 1)) (peekAt 0 s w))
       | .izx d => .mem (w16 (peekAt 1 s (zext16 (d + s.x + 1))) (peekAt 0 s (zext16 (d + s.x))))
       | .izy d => .mem (w16 (peekAt 1 s (zext16 (d + 1))) (peekAt 0 s (zext16 d)) + zext16 s.y)) ∧
    ((atOperation i s).pageCrossed = true ↔
      (match i.operand with
       | .abx w => (w.toNat + s.x.toNat) % 65536 / 256 ≠ w.toNat / 256
       | .aby w => (w.toNat + s.y.toNat) % 65536 / 256 ≠ w.toNat / 256
       | .izy d =>
         ((peekAt 1 s (zext16 (d + 1))).toNat * 256 + (peekAt 0 s (zext16 d)).toNat + s.y.toNat) % 65536 / 256 ≠
           (peekAt 1 s (zext16 (d + 1))).toNat
       | .imp | .acc | .imm _ | .zp0 _ | .zpx _ | .zpy _ | .rel _ | .abs _ | .ind _ | .izx _ => False)) ∧
    (atOperation i s).branchOffset =
      (match i.operand with
       | .rel d => BitVec.ofInt 16 d.toInt
       | .imp | .acc | .imm _ | .zp0 _ | .zpx _ | .zpy _ | .abs _ | .abx _ | .aby _ | .ind _ | .izx _ | .izy _ => 0) ∧
    (∀ a, (atOperation i s).operandRef = .mem a →
      operandByte i s = peekAt (if i.operand.mode ∈ [Mode.ind, .izx, .izy] then 2 else 0) s a) ∧
    ((atOperation i s).operandRef = .regA → operandByte i s = s.a)

/-! ## Loads, stores, transfers (42_load_store_transfer.md) -/

/-- R141, R142, R143: a load puts the operand into its register and sets Z and N, with one more cycle on a page cross (log
entry 17). -/
def Obligations.LoadsPutTheOperandIntoTheRegister : Prop :=
  ∀ (o : Operand) (s : State),
    ((Instr.lda o).wf = true → Completes (.lda o) s
      { getState s with a := operandByte (.lda o) s, p := setZN (operandByte (.lda o) s) s.p } []
      (if (atOperation (.lda o) s).pageCrossed then 1 else 0)) ∧
    ((Instr.ldx o).wf = true → Completes (.ldx o) s
      { getState s with x := operandByte (.ldx o) s, p := setZN (operandByte (.ldx o) s) s.p } []
      (if (atOperation (.ldx o) s).pageCrossed then 1 else 0)) ∧
    ((Instr.ldy o).wf = true → Completes (.ldy o) s
      { getState s with y := operandByte (.ldy o) s, p := setZN (operandByte (.ldy o) s) s.p } []
      (if (atOperation (.ldy o) s).pageCrossed then 1 else 0))

/-- R144, R145, R146: a store writes its register at the operand's address and nothing else: no register, no flag, no other
byte, no extra cycle (log entry 17). -/
def Obligations.StoresWriteTheRegister : Prop :=
  ∀ (o : Operand) (s : State), memWf s.bus s.mem = true →
    ((Instr.sta o).wf = true → ∃ a, (atOperation (.sta o) s).operandRef = .mem a ∧
      Completes (.sta o) s (getState s) [(a, s.a)] 0) ∧
    ((Instr.stx o).wf = true → ∃ a, (atOperation (.stx o) s).operandRef = .mem a ∧
      Completes (.stx o) s (getState s) [(a, s.x)] 0) ∧
    ((Instr.sty o).wf = true → ∃ a, (atOperation (.sty o) s).operandRef = .mem a ∧
      Completes (.sty o) s (getState s) [(a, s.y)] 0)

/-- R147 to R152: the transfers; all but TXS set Z and N. -/
def Obligations.TransfersCopyARegister : Prop :=
  ∀ s : State,
    Completes .tax s { getState s with x := s.a, p := setZN s.a s.p } [] 0 ∧
    Completes .tay s { getState s with y := s.a, p := setZN s.a s.p } [] 0 ∧
    Completes .tsx s { getState s with x := s.sp, p := setZN s.sp s.p } [] 0 ∧
    Completes .txa s { getState s with a := s.x, p := setZN s.x s.p } [] 0 ∧
    Completes .tya s { getState s with a := s.y, p := setZN s.y s.p } [] 0 ∧
    Completes .txs s { getState s with sp := s.x } [] 0

/-! ## The stack (10_state.md, 43_stack.md) -/

/-- R156 to R159: PHA and PHP push A and P with B = U = 1; PLA and PLP pull A with Z and N, and P keeping its live B and U
(log entry 19). -/
def Obligations.StackInstructionsPushAndPull : Prop :=
  ∀ s : State, memWf s.bus s.mem = true →
    Completes .pha s { getState s with sp := s.sp - 1 } [(0x0100 ||| zext16 s.sp, s.a)] 0 ∧
    Completes .php s { getState s with sp := s.sp - 1 } [(0x0100 ||| zext16 s.sp, s.p ||| 0x30)] 0 ∧
    Completes .pla s
      { getState s with
        sp := s.sp + 1
        a := peekAt 0 s (0x0100 ||| zext16 (s.sp + 1))
        p := setZN (peekAt 0 s (0x0100 ||| zext16 (s.sp + 1))) s.p } [] 0 ∧
    Completes .plp s
      { getState s with
        sp := s.sp + 1
        p := (peekAt 0 s (0x0100 ||| zext16 (s.sp + 1)) &&& 0xCF) ||| (s.p &&& 0x30) } [] 0

/-- R24, R35, R36, R37, on every bus: a push writes its byte at the stack address and then decrements SP, a pop increments SP
and then reads; the stack stays in page 1, SP wraps modulo 256, and a pop after a push gives the byte back and restores SP when
RAM stands behind the stack address and nothing else has written it in between. -/
def Obligations.PushThenPopRestores : Prop :=
  ∀ (s : State) (v : Byte),
    (stackAddr s.sp).toNat = 0x0100 + s.sp.toNat ∧
    getState (push v s) = { getState s with sp := s.sp - 1 } ∧ (push v s).sp.toNat = (s.sp.toNat + 255) % 256 ∧
    (push v s).busLog = s.busLog ++ [.write (stackAddr s.sp) v] ∧
    (memWf s.bus s.mem = true → memoryAfter [(stackAddr s.sp, v)] s (push v s)) ∧
    getState (pop s).2 = { getState s with sp := s.sp + 1 } ∧ (pop s).2.sp.toNat = (s.sp.toNat + 1) % 256 ∧
    (pop s).1 = peekAt 0 s (stackAddr (s.sp + 1)) ∧ (pop s).2.mem = s.mem ∧
    (pop s).2.busLog = s.busLog ++ [.read (stackAddr (s.sp + 1)) (pop s).1] ∧
    (∀ (k : Nat) (h : State), memWf s.bus s.mem = true → backing s.bus (stackAddr s.sp) = some k → h.bus = s.bus →
      h.sp = (push v s).sp → memRead h.mem k = memRead (push v s).mem k → (pop h).1 = v ∧ (pop h).2.sp = s.sp)

/-! ## Logic and arithmetic (44_logic_arith.md) -/

/-- R164, R165, R166: AND, ORA and EOR into A, with Z and N, and one more cycle on a page cross (log entry 17). -/
def Obligations.LogicInstructions : Prop :=
  ∀ (o : Operand) (s : State),
    ((Instr.and o).wf = true → Completes (.and o) s
      { getState s with a := s.a &&& operandByte (.and o) s, p := setZN (s.a &&& operandByte (.and o) s) s.p } []
      (if (atOperation (.and o) s).pageCrossed then 1 else 0)) ∧
    ((Instr.ora o).wf = true → Completes (.ora o) s
      { getState s with a := s.a ||| operandByte (.ora o) s, p := setZN (s.a ||| operandByte (.ora o) s) s.p } []
      (if (atOperation (.ora o) s).pageCrossed then 1 else 0)) ∧
    ((Instr.eor o).wf = true → Completes (.eor o) s
      { getState s with a := s.a ^^^ operandByte (.eor o) s, p := setZN (s.a ^^^ operandByte (.eor o) s) s.p } []
      (if (atOperation (.eor o) s).pageCrossed then 1 else 0))

/-- R167, R168: ADC and SBC write A, C, Z, N and V: the decimal algorithm when `DECIMAL_MODE` and D = 1 (PRESUMED, log entry
10), else the binary adder, on the operand or on its complement; one more cycle on a page cross (log entry 17). -/
def Obligations.AddAndSubtractInstructions : Prop :=
  ∀ (o : Operand) (s : State) (r : AdderResult),
    ((Instr.adc o).wf = true →
      r = (if s.cfg.decimalMode = true ∧ flagD s.p = true then adcDec s.a (operandByte (.adc o) s) (flagC s.p)
        else add8 s.a (operandByte (.adc o) s) (flagC s.p)) →
      Completes (.adc o) s { getState s with a := r.res, p := putV r.v (putN r.n (putZ r.z (putC r.c s.p))) } []
        (if (atOperation (.adc o) s).pageCrossed then 1 else 0)) ∧
    ((Instr.sbc o).wf = true →
      r = (if s.cfg.decimalMode = true ∧ flagD s.p = true then sbcDec s.a (operandByte (.sbc o) s) (flagC s.p)
        else add8 s.a (~~~(operandByte (.sbc o) s)) (flagC s.p)) →
      Completes (.sbc o) s { getState s with a := r.res, p := putV r.v (putN r.n (putZ r.z (putC r.c s.p))) } []
        (if (atOperation (.sbc o) s).pageCrossed then 1 else 0))

/-- R169, the spec's decision D7 (log entry 16): 0xEB from a state gives what 0xE9 gives from it, but for the opcode and
descriptor the core has decoded. -/
def Obligations.UndocumentedSbcIsSbcImmediate : Prop :=
  ∀ (d : Byte) (s : State), ∃ t, exec (.sbc (.imm d)) s = .next t ∧
    exec (.sbcEB (.imm d)) s = .next { t with opcode := 0xEB, desc := some (descriptor 0xEB) }

/-- R163, R171: the binary adder as numbers: sum and carry modulo 256, Z and N of the sum, and V by the signs of the operands
and of the result, which is exactly on signed overflow. -/
def Obligations.BinaryAdderLaw : Prop :=
  ∀ (a m : Byte) (c : Bool),
    (add8 a m c).res.toNat = (a.toNat + m.toNat + c.toNat) % 256 ∧
    ((add8 a m c).c = true ↔ a.toNat + m.toNat + c.toNat > 0xFF) ∧
    ((add8 a m c).z = true ↔ (a.toNat + m.toNat + c.toNat) % 256 = 0) ∧
    ((add8 a m c).n = true ↔ 128 ≤ (a.toNat + m.toNat + c.toNat) % 256) ∧
    ((add8 a m c).v = true ↔ (a ^^^ (add8 a m c).res) &&& 0x80 ≠ 0 ∧ (a ^^^ m) &&& 0x80 = 0) ∧
    ((add8 a m c).v = true ↔ a.toInt + m.toInt + (c.toNat : Int) < -128 ∨ 127 < a.toInt + m.toInt + (c.toNat : Int))

/-- R168, R171: binary subtraction: A - M - (1 - C) modulo 256, C set exactly when no borrow occurred, V on signed overflow; and
SBC of M with carry-in 1 - C takes the sum of A, M and C back to A (conflict C4). -/
def Obligations.BinarySubtractionLaw : Prop :=
  ∀ (a m : Byte) (c : Bool),
    (add8 a (~~~m) c).res = a - m - (if c then 0 else 1) ∧
    ((add8 a (~~~m) c).c = true ↔ m.toNat + (if c then 0 else 1) ≤ a.toNat) ∧
    ((add8 a (~~~m) c).v = true ↔
      a.toInt - m.toInt - (if c then 0 else 1) < -128 ∨ 127 < a.toInt - m.toInt - (if c then 0 else 1)) ∧
    (add8 (add8 a m c).res (~~~m) (!c)).res = a

/-- R170 (general knowledge of the NMOS 6502, PRESUMED, log entry 10): on every two bytes and carry, the result and the flags of
decimal addition, and the result of decimal subtraction, whose flags are those of the binary one; and on bytes of two decimal
digits, they are the addition and the subtraction of two-digit decimal numbers, with a decimal carry. -/
def Obligations.DecimalAdditionAndSubtraction : Prop :=
  (∀ (a m : Byte) (c : Bool) (d al h s : Nat) (t : Int), d = a.toNat % 16 + m.toNat % 16 + c.toNat →
    al = (if 10 ≤ d then (d + 6) % 16 + 16 else d) → h = a.toNat / 16 * 16 + m.toNat / 16 * 16 + al →
    s = (if 0xA0 ≤ h then h + 0x60 else h) → t = (a &&& 0xF0).toInt + (m &&& 0xF0).toInt + (al : Int) →
      (adcDec a m c).res.toNat = s % 256 ∧ ((adcDec a m c).c = true ↔ 0x100 ≤ s) ∧
      ((adcDec a m c).z = true ↔ (a.toNat + m.toNat + c.toNat) % 256 = 0) ∧
      ((adcDec a m c).n = true ↔ 128 ≤ t % 256) ∧ ((adcDec a m c).v = true ↔ t < -128 ∨ 127 < t)) ∧
  (∀ (a m : Byte) (c : Bool) (d al h s : Int), d = (a.toNat % 16 : Nat) - (m.toNat % 16 : Nat) + (c.toNat : Int) - 1 →
    al = (if d < 0 then (d - 6) % 16 - 16 else d) → h = (a.toNat / 16 * 16 : Nat) - (m.toNat / 16 * 16 : Nat) + al →
    s = (if h < 0 then h - 0x60 else h) →
      ((sbcDec a m c).res.toNat : Int) = s % 256 ∧ (sbcDec a m c).c = (add8 a (~~~m) c).c ∧
      (sbcDec a m c).z = (add8 a (~~~m) c).z ∧ (sbcDec a m c).n = (add8 a (~~~m) c).n ∧
      (sbcDec a m c).v = (add8 a (~~~m) c).v) ∧
  (∀ (a1 a0 m1 m0 : Nat) (c : Bool) (a m : Byte), a1 < 10 → a0 < 10 → m1 < 10 → m0 < 10 →
    a.toNat = 16 * a1 + a0 → m.toNat = 16 * m1 + m0 →
      (∃ r1 r0, r1 < 10 ∧ r0 < 10 ∧ (adcDec a m c).res.toNat = 16 * r1 + r0 ∧
        10 * a1 + a0 + (10 * m1 + m0) + c.toNat = 10 * r1 + r0 + 100 * (adcDec a m c).c.toNat) ∧
      (∃ r1 r0, r1 < 10 ∧ r0 < 10 ∧ (sbcDec a m c).res.toNat = 16 * r1 + r0 ∧
        10 * a1 + a0 + 100 + c.toNat = 10 * m1 + m0 + 1 + (10 * r1 + r0) + 100 * (sbcDec a m c).c.toNat))

/-! ## Flags (10_state.md) -/

/-- R10, R183: Z and N of a result, and the flags of a comparison; every other bit of P stays. -/
def Obligations.ResultAndCompareFlags : Prop :=
  ∀ (v r m p : Byte) (k : Nat),
    flagZ (setZN v p) = decide (v = 0) ∧ flagN (setZN v p) = v.getLsbD 7 ∧
    (k ≠ 1 → k ≠ 7 → (setZN v p).getLsbD k = p.getLsbD k) ∧
    flagC (compareP r m p) = decide (m.toNat ≤ r.toNat) ∧ flagZ (compareP r m p) = decide (r = m) ∧
    flagN (compareP r m p) = decide (128 ≤ (r.toNat + 256 - m.toNat) % 256) ∧
    (k ≠ 0 → k ≠ 1 → k ≠ 7 → (compareP r m p).getLsbD k = p.getLsbD k)

/-- R34: bit by bit, the images of P that are pushed, and the P that a pull leaves. That a pull keeps the live B and U is log
entry 19. -/
def Obligations.PushedAndPulledStatus : Prop :=
  ∀ (p v : Byte) (k : Nat), k < 8 →
    (pushedPsw p).getLsbD k = (if k = 4 ∨ k = 5 then true else p.getLsbD k) ∧
    (pushedPhw p).getLsbD k = (if k = 4 then false else if k = 5 then true else p.getLsbD k) ∧
    (pulledP p v).getLsbD k = (if k = 4 ∨ k = 5 then p.getLsbD k else v.getLsbD k)

/-- R216 to R222: each flag instruction writes its one bit of P and nothing else. -/
def Obligations.FlagInstructionsWriteOneFlag : Prop :=
  ∀ s : State,
    Completes .clc s { getState s with p := s.p &&& 0xFE } [] 0 ∧ Completes .sec s { getState s with p := s.p ||| 0x01 } [] 0 ∧
    Completes .cli s { getState s with p := s.p &&& 0xFB } [] 0 ∧ Completes .sei s { getState s with p := s.p ||| 0x04 } [] 0 ∧
    Completes .cld s { getState s with p := s.p &&& 0xF7 } [] 0 ∧ Completes .sed s { getState s with p := s.p ||| 0x08 } [] 0 ∧
    Completes .clv s { getState s with p := s.p &&& 0xBF } [] 0

/-! ## Shifts, compares, increments (45_shift_rotate.md, 46_compare_bit_incdec.md) -/

/-- R176 to R179: the four read the operand, write the shifted byte back where it came from, memory or A, and set C, Z and N. -/
def Obligations.ShiftsAndRotates : Prop :=
  ∀ (o : Operand) (s : State), memWf s.bus s.mem = true →
    (∀ r, (Instr.asl o).wf = true → r = operandByte (.asl o) s <<< 1 →
      Completes (.asl o) s
        { getState s with a := storeA (.asl o) s r, p := setZN r (putC ((operandByte (.asl o) s).getLsbD 7) s.p) }
        (storeWrites (.asl o) s r) 0) ∧
    (∀ r, (Instr.lsr o).wf = true → r = operandByte (.lsr o) s >>> 1 →
      Completes (.lsr o) s
        { getState s with a := storeA (.lsr o) s r, p := setZN r (putC ((operandByte (.lsr o) s).getLsbD 0) s.p) }
        (storeWrites (.lsr o) s r) 0) ∧
    (∀ r, (Instr.rol o).wf = true → r = operandByte (.rol o) s <<< 1 ||| (if flagC s.p then 0x01 else 0x00) →
      Completes (.rol o) s
        { getState s with a := storeA (.rol o) s r, p := setZN r (putC ((operandByte (.rol o) s).getLsbD 7) s.p) }
        (storeWrites (.rol o) s r) 0) ∧
    (∀ r, (Instr.ror o).wf = true → r = operandByte (.ror o) s >>> 1 ||| (if flagC s.p then 0x80 else 0x00) →
      Completes (.ror o) s
        { getState s with a := storeA (.ror o) s r, p := setZN r (putC ((operandByte (.ror o) s).getLsbD 0) s.p) }
        (storeWrites (.ror o) s r) 0)

/-- R180: ROR of M with carry C carries out bit 0 of M, and ROL of its result with that carry gives back M and carries out C. -/
def Obligations.RotatesAreInverse : Prop :=
  ∀ (m : Byte) (c : Bool), (rorByte c m).2 = m.getLsbD 0 ∧ rolByte (m.getLsbD 0) (rorByte c m).1 = (m, c)

/-- R184, R185, R186: the compares write C, Z and N from their register and the operand, and no register but P; CMP has one
more cycle on a page cross (log entry 17). -/
def Obligations.CompareInstructions : Prop :=
  ∀ (o : Operand) (s : State),
    ((Instr.cmp o).wf = true → Completes (.cmp o) s
      { getState s with p := compareP s.a (operandByte (.cmp o) s) s.p } []
      (if (atOperation (.cmp o) s).pageCrossed then 1 else 0)) ∧
    ((Instr.cpx o).wf = true → Completes (.cpx o) s
      { getState s with p := compareP s.x (operandByte (.cpx o) s) s.p } [] 0) ∧
    ((Instr.cpy o).wf = true → Completes (.cpy o) s
      { getState s with p := compareP s.y (operandByte (.cpy o) s) s.p } [] 0)

/-- R187: BIT writes Z from A and the operand, V and N from the operand's bits 6 and 7, no other bit and no register. -/
def Obligations.BitTestInstruction : Prop :=
  ∀ (o : Operand) (s : State) (m p' : Byte), (Instr.bit o).wf = true → m = operandByte (.bit o) s →
    (∀ k, k < 8 → p'.getLsbD k = (if k = 1 then decide (s.a &&& m = 0) else if k = 6 then m.getLsbD 6
      else if k = 7 then m.getLsbD 7 else s.p.getLsbD k)) →
    Completes (.bit o) s { getState s with p := p' } [] 0

/-- R188, R189: INC and DEC write the operand plus or minus 1 modulo 256 back at its address, and set Z and N. -/
def Obligations.IncrementAndDecrementMemory : Prop :=
  ∀ (o : Operand) (s : State), memWf s.bus s.mem = true →
    ((Instr.inc o).wf = true → ∃ a, (atOperation (.inc o) s).operandRef = .mem a ∧
      Completes (.inc o) s { getState s with p := setZN (operandByte (.inc o) s + 1) s.p }
        [(a, operandByte (.inc o) s + 1)] 0) ∧
    ((Instr.dec o).wf = true → ∃ a, (atOperation (.dec o) s).operandRef = .mem a ∧
      Completes (.dec o) s { getState s with p := setZN (operandByte (.dec o) s - 1) s.p }
        [(a, operandByte (.dec o) s - 1)] 0)

/-- R190 to R193: INX, INY, DEX and DEY, with Z and N. -/
def Obligations.IncrementAndDecrementRegisters : Prop :=
  ∀ s : State,
    Completes .inx s { getState s with x := s.x + 1, p := setZN (s.x + 1) s.p } [] 0 ∧
    Completes .iny s { getState s with y := s.y + 1, p := setZN (s.y + 1) s.p } [] 0 ∧
    Completes .dex s { getState s with x := s.x - 1, p := setZN (s.x - 1) s.p } [] 0 ∧
    Completes .dey s { getState s with y := s.y - 1, p := setZN (s.y - 1) s.p } [] 0

/-! ## Jumps, subroutines, branches (47_jump_branch.md) -/

/-- R197, R198: JMP loads PC with the operand's address; JSR first pushes PC - 1, the address of its own last byte, high byte
then low byte. That a pointer's low byte is read first is log entry 18. -/
def Obligations.JumpAndCall : Prop :=
  ∀ (w : Addr) (s : State),
    Completes (.jmp (.abs w)) s { getState s with pc := w } [] 0 ∧
    Completes (.jmp (.ind w)) s
      { getState s with
        pc := w16 (peekAt 1 s (if lo w = 0xFF then w - 0xFF else w + 1)) (peekAt 0 s w) } [] 0 ∧
    (memWf s.bus s.mem = true →
      Completes (.jsr (.abs w)) s { getState s with pc := w, sp := s.sp - 2 }
        [(stackAddr s.sp, hi (s.pc - 1)), (stackAddr (s.sp - 1), lo (s.pc - 1))] 0)

/-- R199, R200: RTS pops a word and adds 1; RTI pops P, keeping the live B and U (log entry 19), then a word, and adds
nothing. That a word's low byte is popped first is log entry 18. -/
def Obligations.ReturnInstructions : Prop :=
  ∀ s : State,
    Completes .rts s
      { getState s with
        sp := s.sp + 2
        pc := w16 (peekAt 1 s (stackAddr (s.sp + 2))) (peekAt 0 s (stackAddr (s.sp + 1))) + 1 } [] 0 ∧
    Completes .rti s
      { getState s with
        sp := s.sp + 3
        p := pulledP s.p (peekAt 0 s (stackAddr (s.sp + 1)))
        pc := w16 (peekAt 2 s (stackAddr (s.sp + 3))) (peekAt 1 s (stackAddr (s.sp + 2))) } [] 0

/-- R198, R199: after a JSR, an RTS that finds SP and the two pushed bytes as JSR left them resumes at the byte after the JSR
with SP restored. The order of the pops is log entry 18. -/
def Obligations.ReturnUndoesCall : Prop :=
  ∀ (w : Addr) (s t h : State), memWf s.bus s.mem = true → s.bus = some .flatRam → exec (.jsr (.abs w)) s = .next t →
    h.bus = some .flatRam → h.sp = t.sp → ramAt h (stackAddr s.sp) = ramAt t (stackAddr s.sp) →
    ramAt h (stackAddr (s.sp - 1)) = ramAt t (stackAddr (s.sp - 1)) →
      ∃ u, exec .rts h = .next u ∧ u.pc = s.pc ∧ u.sp = s.sp

/-- R201 to R209: each branch tests its flag (PRESUMED, log entry 12); taken, PC (past the branch) moves by the signed
displacement modulo 65536, with one more cycle, two across a page; not taken, nothing changes. -/
def Obligations.BranchInstructions : Prop :=
  ∀ (d : Byte) (s : State) (taken notTaken : Snapshot) (e : Nat),
    taken = { getState s with pc := BitVec.ofInt 16 (s.pc.toNat + d.toInt) } → notTaken = getState s →
    e = (if (BitVec.ofInt 16 (s.pc.toNat + d.toInt)).toNat / 256 = s.pc.toNat / 256 then 1 else 2) →
    Completes (.bpl (.rel d)) s (if flagN s.p then notTaken else taken) [] (if flagN s.p then 0 else e) ∧
    Completes (.bmi (.rel d)) s (if flagN s.p then taken else notTaken) [] (if flagN s.p then e else 0) ∧
    Completes (.bvc (.rel d)) s (if flagV s.p then notTaken else taken) [] (if flagV s.p then 0 else e) ∧
    Completes (.bvs (.rel d)) s (if flagV s.p then taken else notTaken) [] (if flagV s.p then e else 0) ∧
    Completes (.bcc (.rel d)) s (if flagC s.p then notTaken else taken) [] (if flagC s.p then 0 else e) ∧
    Completes (.bcs (.rel d)) s (if flagC s.p then taken else notTaken) [] (if flagC s.p then e else 0) ∧
    Completes (.bne (.rel d)) s (if flagZ s.p then notTaken else taken) [] (if flagZ s.p then 0 else e) ∧
    Completes (.beq (.rel d)) s (if flagZ s.p then taken else notTaken) [] (if flagZ s.p then e else 0)

/-! ## BRK, NOP, XXX (49_system.md) -/

/-- R226: BRK, with PC past its opcode, pushes PC + 1 and P with B = U = 1, sets I and no other flag, and loads PC from
0xFFFE/0xFFFF. The order of its transactions is log entry 18; that the live B stays is log entry 19. -/
def Obligations.BreakEntersTheHandler : Prop :=
  ∀ s : State, memWf s.bus s.mem = true →
    Completes .brk s
      { getState s with
        pc := w16 (peekAt 4 s 0xFFFF) (peekAt 3 s 0xFFFE), sp := s.sp - 3, p := s.p ||| 0x04 }
      [(stackAddr s.sp, hi (s.pc + 1)), (stackAddr (s.sp - 1), lo (s.pc + 1)), (stackAddr (s.sp - 2), s.p ||| 0x30)] 0

/-- R227, R228: NOP and each of the 104 XXX opcodes change nothing but the cycle count. That an XXX opcode has length 1 and no
effect is log entry 16; its count, 2 to 8, is log entry 9; NOP's count of 2 is PRESUMED (log entry 11). -/
def Obligations.NoOperationInstructions : Prop :=
  ∀ (op : Byte) (s : State), Completes .nop s (getState s) [] 0 ∧ baseCyclesOf .nop = 2 ∧
    (op ∈ undocumented → Completes (.xxx op) s (getState s) [] 0 ∧
      2 ≤ baseCyclesOf (.xxx op) ∧ baseCyclesOf (.xxx op) ≤ 8)

/-! ## Interrupts (60_exceptions.md) -/

/-- R234, R235, R236: at a boundary `irq()` enters the handler at once when I = 0 and is ignored when I = 1 (log entry 21);
`nmi()` enters its handler whatever I holds. The entry leaves the opcode 0x00, no descriptor, OperandRef `REG_A`, branch
offset 0 and no page cross, of which the spec leaves opcode, OperandRef and branch offset arbitrary (DESIGN CHOICE, log entry
20). The order of its transactions is log entry 18; that the live B stays is log entry 19. -/
def Obligations.InterruptsAtABoundary : Prop :=
  ∀ s : State, Connected s → s.inFlight = false → memWf s.bus s.mem = true →
    (flagI s.p = false → ∃ t, hostCall .irq s = .next t ∧ InterruptEntered 0xFFFE s t) ∧
    (flagI s.p = true → hostCall .irq s = .next s) ∧
    (∃ t, hostCall .nmi s = .next t ∧ InterruptEntered 0xFFFA s t)

/-- R242, R226: an RTI that finds SP and the three stack bytes as an IRQ, NMI or BRK entry left them gives back SP, and P but
for B and U, which stay as they are live (log entry 19); PC is the interrupted one, and for BRK (with PC past its opcode) the
one past the padding byte. The order of pushes and pops is log entry 18. -/
def Obligations.ReturnUndoesEntry : Prop :=
  ∀ (s t h : State) (back : Addr), memWf s.bus s.mem = true → s.bus = some .flatRam →
    (flagI s.p = false ∧ hostCall .irq s = .next t ∧ back = s.pc ∨ hostCall .nmi s = .next t ∧ back = s.pc ∨
      exec .brk s = .next t ∧ back = s.pc + 1) →
    h.bus = some .flatRam → h.sp = t.sp →
    (∀ n : Byte, n = 0 ∨ n = 1 ∨ n = 2 → ramAt h (stackAddr (s.sp - n)) = ramAt t (stackAddr (s.sp - n))) →
      ∃ u, exec .rti h = .next u ∧ u.pc = back ∧ u.sp = s.sp ∧
        u.p &&& 0xCF = s.p &&& 0xCF ∧ u.p &&& 0x30 = h.p &&& 0x30

/-! ## RESET and the rest of the interface (40_fetch_execute.md, 70_reset_and_hazards.md) -/

/-- R46, R261, R262: what `reset()` leaves, from any state of a connected core, an instruction in flight included (log entry
22); a second one leaves the same snapshot where the vector reads have no side effect. P is log entry 5; the cleared opcode,
OperandRef and branch offset are DESIGN CHOICE (log entry 20). -/
def Obligations.ResetLeavesTheResetValues : Prop :=
  ∀ s : State, Connected s → ∃ t, hostCall .reset s = .next t ∧
    getState t = { pc := w16 (peekAt 1 s 0xFFFD) (peekAt 0 s 0xFFFC), sp := 0xFD, a := 0, x := 0, y := 0, p := 0x34 } ∧
    t.mem = s.mem ∧ t.bus = s.bus ∧ t.cyclesElapsed = s.cyclesElapsed ∧ t.remainingCycles = 8 ∧ t.inFlight = false ∧
    t.desc = none ∧ t.pageCrossed = false ∧ t.branchOffset = 0 ∧ t.operandRef = .regA ∧ t.opcode = 0x00 ∧
    busShape t = busShape s ++ [(false, 0xFFFC), (false, 0xFFFD)] ∧
    (s.bus ≠ some .other → ∃ u, hostCall .reset t = .next u ∧ getState u = getState t)

/-- R102, R264, R46: `connect` installs the bus with `MEM_INIT` in it, sets the cycle counter to 0 and performs RESET, on every bus:
the RESET values of the registers, PC from the two vector reads, memory as `MEM_INIT` and the transient state as after `reset()`;
a second one is refused. The model's own choices in it: a byte that `MEM_INIT` does not list holds `memBlank` (DESIGN CHOICE, log
entry 4); the cleared transient values (log entry 20); P (log entry 5); the counter (log entry 23). -/
def Obligations.ConnectPerformsPowerOnReset : Prop :=
  ∀ (b : Bus) (init : List (Addr × Byte)) (s : State),
    (s.bus = none → ∃ t, hostCall (.connect b init) s = .next t ∧ t.bus = some b ∧ t.cyclesElapsed = 0 ∧
      memWf t.bus t.mem = true ∧ (∀ k, memRead t.mem k = byteAfter (some b) init k memBlank) ∧
      getState t =
        { pc := w16 (peekAt 1 { t with busTime := 0 } 0xFFFD) (peekAt 0 { t with busTime := 0 } 0xFFFC)
          sp := 0xFD, a := 0, x := 0, y := 0, p := 0x34 } ∧
      t.remainingCycles = 8 ∧ t.inFlight = false ∧ t.desc = none ∧ t.pageCrossed = false ∧ t.branchOffset = 0 ∧
      t.operandRef = .regA ∧ t.opcode = 0x00 ∧ t.cfg = s.cfg ∧
      busShape t = busShape s ++ [(false, 0xFFFC), (false, 0xFFFD)] ∧
      ∃ u, hostCall .reset t = .next u ∧ t.mem = u.mem ∧ t.remainingCycles = u.remainingCycles ∧
        t.inFlight = u.inFlight ∧ t.desc = u.desc ∧ (b ≠ .other → getState t = getState u)) ∧
    (Connected s → hostCall (.connect b init) s = .refused .alreadyConnected)

/-- R46, R264, with the model's choice of empty memory (log entries 4, 6 and 28): the state after reset is what `connect` with
`FlatRAM64K` and no byte of `MEM_INIT` leaves. -/
def Obligations.ResetStateIsPowerOnState : Prop :=
  ∀ s : State, s.bus = none →
    hostCall (.connect .flatRam []) s =
      .next { State.reset with
        cfg := s.cfg, hostCalls := s.hostCalls, reply := s.reply, busLog := s.busLog ++ State.reset.busLog }

/-- R113: which calls are refused and with which name; a call before `connect` (log entry 24), and `set_state`, `irq` and
`nmi` in the middle of an instruction (log entry 21). -/
def Obligations.CallsThatAreRefused : Prop :=
  ∀ (s : State) (c : HostCall),
    (s.bus = none → (∀ b init, c ≠ .connect b init) → hostCall c s = .refused .notConnected) ∧
    (Connected s → s.inFlight = true →
      (∀ r, c = .setState r → hostCall c s = .refused .midInstructionSetState) ∧
      (c = .irq ∨ c = .nmi → hostCall c s = .refused .midInstructionInterrupt)) ∧
    (Connected s → Coherent s → (∀ b init, c ≠ .connect b init) →
      (s.inFlight = true → (∀ r, c ≠ .setState r) ∧ c ≠ .irq ∧ c ≠ .nmi) → ∃ t, hostCall c s = .next t)

/-- R110, R111: `get_state` hands back the six registers and `set_state` writes them and nothing else; `read_memory` and
`write_memory` are one bus transaction each, hand back the bus's byte or its Boolean result, and change no core state. And what
the bus instances do with the transaction, R55, R56, R57: `FlatRAM64K` reads and writes the RAM byte of the address and answers
true; `NESBus` has 2 KiB of RAM mirrored in 0x0000 to 0x1FFF, reads 0 at an unrouted address of 0x2000 to 0x7FFF and
`NES_HIGH_MAP` from 0x8000 on, and drops an unrouted write with result false; a device or any other bus answers a free value.
That the instance is data of the state, the list of routed ranges, and the form of the free values are the model's choices (log
entries 6, 7 and 8). -/
def Obligations.SnapshotsAndMemoryCalls : Prop :=
  ∀ (s : State) (r : Snapshot) (a : Addr) (v : Byte), Connected s →
    hostCall .getState s = .next { s with reply := some (.snapshot (getState s)) } ∧
    (s.inFlight = false →
      hostCall (.setState r) s = .next { s with pc := r.pc, sp := r.sp, a := r.a, x := r.x, y := r.y, p := r.p }) ∧
    hostCall (.readMemory a) s = .next { s with
      busTime := s.busTime + 1, busLog := s.busLog ++ [.read a (busPeek s a)], reply := some (.byte (busPeek s a)) } ∧
    (memWf s.bus s.mem = true → ∃ t, hostCall (.writeMemory a v) s = .next t ∧ memoryAfter [(a, v)] s t ∧
      t = { s with
        mem := t.mem, busTime := s.busTime + 1, busLog := s.busLog ++ [.write a v], reply := some (.taken (busTakes s a)) }) ∧
    (s.bus = some .flatRam → busPeek s a = memRead s.mem a.toNat ∧ busTakes s a = true ∧ backing s.bus a = some a.toNat) ∧
    (∀ routed, s.bus = some (.nes routed) →
      if a.toNat ≤ 0x1FFF then
        busPeek s a = memRead s.mem (a &&& 0x07FF).toNat ∧ busTakes s a = true ∧ backing s.bus a = some (a &&& 0x07FF).toNat
      else
        backing s.bus a = none ∧
        (0x8000 ≤ a.toNat → busPeek s a = Config.nesHighMap a) ∧
        ((∀ q ∈ routed, a.toNat < q.1.toNat ∨ q.2.toNat < a.toNat) →
          busTakes s a = false ∧ (a.toNat ≤ 0x7FFF → busPeek s a = 0)) ∧
        ((∃ q ∈ routed, q.1.toNat ≤ a.toNat ∧ a.toNat ≤ q.2.toNat) →
          busTakes s a = Config.deviceTook s.busTime a ∧
          (a.toNat ≤ 0x7FFF → busPeek s a = Config.deviceByte s.busTime a))) ∧
    (s.bus = some .other → busPeek s a = Config.deviceByte s.busTime a ∧ busTakes s a = Config.deviceTook s.busTime a ∧
      backing s.bus a = none)

/-- R103, R104: a `run_cycle` fetches and resolves in an instruction's first cycle, runs the operation in its last base cycle,
and only counts in every other (log entry 14). -/
def Obligations.OneClockOfTheCore : Prop :=
  ∀ s : State,
    (s.inFlight = false → s.remainingCycles = 0 →
      runCycle s = .next
        { fetchAndResolve { s with cyclesElapsed := s.cyclesElapsed + 1 } with
          remainingCycles := (descriptor (busPeek s s.pc)).baseCycles - 1 }) ∧
    (s.inFlight = false ∧ 1 ≤ s.remainingCycles ∨ s.inFlight = true ∧ 2 ≤ s.remainingCycles →
      runCycle s = .next
        { s with cyclesElapsed := s.cyclesElapsed + 1, remainingCycles := s.remainingCycles - 1 }) ∧
    (s.inFlight = true → s.remainingCycles ≤ 1 → ∀ d, s.desc = some d →
      runCycle s = .next (executeOp (operationOf d.operation)
        { s with cyclesElapsed := s.cyclesElapsed + 1, remainingCycles := 0 }))

/-- R109, R114: the instruction-level composition (log entry 1) is the loop of `run_cycle` (log entry 14): with any fuel of at
least `n` the loop ends in the state the composition gives, and `n` is the number of cycles handed back. -/
def Obligations.InstructionStepIsTheCycleLoop : Prop :=
  ∀ s : State, Coherent s → ∃ n t, runInstruction s = .next { t with reply := some (.cycles n) } ∧
    t.cyclesElapsed = s.cyclesElapsed + n ∧ t.remainingCycles = 0 ∧ t.inFlight = false ∧
    ∀ fuel, n ≤ fuel → runLoop fuel false s = .next t

/-- R269: a host write in the middle of `LDA #` is seen by the operation's read of the literal (log entry 15). -/
def Obligations.HostWriteReachesPendingOperand : Prop :=
  ∀ (s t u : State) (a : Addr) (v : Byte), s.bus = some .flatRam → memWf s.bus s.mem = true → s.inFlight = true →
    s.desc = some (descriptor 0xA9) → s.remainingCycles = 1 → s.operandRef = .mem a →
    hostCall (.writeMemory a v) s = .next t → hostCall .runCycle t = .next u → u.a = v

/-! ## The step, and the machine as a whole -/

/-- R105, R109, R114, on every bus: when the bytes that reads at the PC give decode to an instruction `i`, then at a boundary
with no call listed the step is `exec i` in the state past the instruction's bytes, after which its extra cycles pass and the
number of cycles is handed back. That such a step is one `run_instruction()`, computed as a composition, is the model's DESIGN
CHOICE (log entry 1), and so are the bus port and the reply (log entry 28); that the literal of IMM is not read by the fetch
is log entry 15. -/
def Obligations.StepRunsTheDecodedInstruction : Prop :=
  ∀ (s : State) (i : Instr) (rest : List Byte), Connected s → s.hostCalls = [] → s.inFlight = false →
    decode [peekAt 0 s s.pc, peekAt 1 s (s.pc + 1), peekAt 2 s (s.pc + 2)] = .ok (i, rest) →
      i.wf = true ∧ ∃ t, exec i (afterFetch i s) = .next t ∧
        step s = .next { t with
          cyclesElapsed := t.cyclesElapsed + t.remainingCycles
          remainingCycles := 0
          reply := some (.cycles (t.cyclesElapsed + t.remainingCycles - s.cyclesElapsed)) }

/-- R101, R239, log entries 2 and 28: a step clears the bus port and the reply and makes the host's first listed call. -/
def Obligations.StepMakesTheListedCall : Prop :=
  ∀ (s : State) (c : HostCall) (cs : List HostCall), s.hostCalls = c :: cs →
    step s = hostCall c { s with hostCalls := cs, busLog := [], reply := none }

/-- R61, R62, R63: the operation of every instruction makes exactly the bus transactions of the table, in its order (log
entries 15 and 18). -/
def Obligations.OperationsMakeTheListedTransactions : Prop :=
  ∀ (i : Instr) (s t : State), exec i s = .next t →
    busShape t = busShape (atOperation i s) ++ operationShape i (atOperation i s)

/-- R22: only the listed instructions write A, X, Y and SP. -/
def Obligations.RegisterWriters : Prop :=
  ∀ (i : Instr) (s t : State), exec i s = .next t →
    (i.operation ∉ [Operation.lda, .txa, .tya, .pla, .and, .ora, .eor, .adc, .sbc] →
      ¬ (i.operation ∈ [Operation.asl, .lsr, .rol, .ror] ∧ i.operand.mode = .acc) → t.a = s.a) ∧
    (i.operation ∉ [Operation.ldx, .tax, .tsx, .inx, .dex] → t.x = s.x) ∧
    (i.operation ∉ [Operation.ldy, .tay, .iny, .dey] → t.y = s.y) ∧
    (i.operation ∉ [Operation.txs, .pha, .php, .pla, .plp, .jsr, .rts, .rti, .brk] → t.sp = s.sp)

/-- R26 to R33: only the listed instructions write each flag; no instruction writes B or U (log entry 19). -/
def Obligations.FlagWriters : Prop :=
  ∀ (i : Instr) (s t : State), exec i s = .next t →
    (i.operation ∉ [Operation.adc, .sbc, .cmp, .cpx, .cpy, .asl, .lsr, .rol, .ror, .clc, .sec, .plp, .rti] →
      flagC t.p = flagC s.p) ∧
    (i.operation ∉ [Operation.lda, .ldx, .ldy, .tax, .tay, .tsx, .txa, .tya, .pla, .and, .ora, .eor, .asl, .lsr, .rol,
      .ror, .inc, .dec, .inx, .iny, .dex, .dey, .adc, .sbc, .cmp, .cpx, .cpy, .bit, .plp, .rti] →
      flagZ t.p = flagZ s.p ∧ flagN t.p = flagN s.p) ∧
    (i.operation ∉ [Operation.sei, .cli, .brk, .plp, .rti] → flagI t.p = flagI s.p) ∧
    (i.operation ∉ [Operation.sed, .cld, .plp, .rti] → flagD t.p = flagD s.p) ∧
    (i.operation ∉ [Operation.adc, .sbc, .bit, .clv, .plp, .rti] → flagV t.p = flagV s.p) ∧
    flagB t.p = flagB s.p ∧ flagU t.p = flagU s.p

/-- R30, R31: over every step, B and U of the live P change only by RESET and `set_state` (log entry 19). -/
def Obligations.LiveBreakAndUnusedBitsStay : Prop :=
  ∀ s t : State, step s = .next t →
    (∀ c cs, s.hostCalls = c :: cs → c ≠ .reset ∧ (∀ r, c ≠ .setState r) ∧ ∀ b init, c ≠ .connect b init) →
      flagB t.p = flagB s.p ∧ flagU t.p = flagU s.p

/-- R4, R8, R45: no step changes the build parameters, and none but `connect` the bus. That they are data of the state is the
model's choice (log entries 6 and 10). -/
def Obligations.ParametersNeverChange : Prop :=
  ∀ s t : State, step s = .next t → t.cfg = s.cfg ∧ (Connected s → t.bus = s.bus)

/-- R46: the invariant holds at reset, where the core is connected (State.reset is the model's of log entries 4 and 6). -/
def Obligations.ResetStateMeetsInvariant : Prop := Coherent State.reset ∧ Connected State.reset

/-- Every step keeps the invariant: the RAM stays canonical and fits its bus, and what is in flight stays coherent. -/
def Obligations.StepKeepsInvariant : Prop :=
  ∀ s t : State, Coherent s → step s = .next t → Coherent t

/-- R115, R233, R273: the core never stops: with no call listed, a connected core's step answers a next state (that such a
step is one `run_instruction()` is log entry 1), and no step of any kind ends in a fault (the model's one fault,
`noDescriptor`, is log entry 25). -/
def Obligations.CoreNeverStops : Prop :=
  ∀ s : State, Coherent s →
    (Connected s → s.hostCalls = [] → ∃ t, step s = .next t) ∧ (∀ f, step s ≠ .fault f)

/-- R270, R107, R108: `exec` of a documented instruction, or of 0xEB, takes 2 to 7 cycles, its extra cycles counted; and a step
that fetches such an instruction at a boundary takes the cycles left over plus 2 to 7, which it hands back. The base cycles are
PRESUMED (log entry 11), the penalty is log entry 17, and that a step is one `run_instruction()` is log entry 1. -/
def Obligations.DocumentedInstructionCycles : Prop :=
  (∀ (i : Instr) (s t : State), exec i s = .next t → i.operation ≠ .xxx →
    2 ≤ t.cyclesElapsed + t.remainingCycles - s.cyclesElapsed ∧
    t.cyclesElapsed + t.remainingCycles - s.cyclesElapsed ≤ 7) ∧
  (∀ s : State, Connected s → s.hostCalls = [] → s.inFlight = false →
    (descriptor (peekAt 0 s s.pc)).operation ≠ .xxx →
      ∃ t n, step s = .next t ∧ t.reply = some (.cycles n) ∧ t.cyclesElapsed = s.cyclesElapsed + n ∧
        s.remainingCycles + 2 ≤ n ∧ n ≤ s.remainingCycles + 7)
end

