-- ==== Sys2Proof/Laws/PerInstr.lean ====
section
/-! SUPPORT. One law per instruction as syntax: a well-formed instruction has an opcode, and the decode table's entry for
that opcode names the instruction's operation and mode (30_encoding.md R87 against R88). -/

namespace Sys2Proof.Laws.OpcodeLaw

/-- The opcode of the listing of R88 is the entry of the map of R87 with the same operation and mode. -/
def Statement (i : Instr) : Prop :=
  i.wf = true →
    ∃ b, i.opcode = some b ∧ (descriptor b).operation = i.operation ∧ (descriptor b).mode = i.operand.mode ∧
      instrOf b i.operand = i

theorem adc (o : Operand) : Statement (.adc o) := by
  intro h
  cases o <;> first | exact nomatch (show false = true from h) | exact ⟨_, rfl, rfl, rfl, rfl⟩
theorem and (o : Operand) : Statement (.and o) := by
  intro h
  cases o <;> first | exact nomatch (show false = true from h) | exact ⟨_, rfl, rfl, rfl, rfl⟩
theorem asl (o : Operand) : Statement (.asl o) := by
  intro h
  cases o <;> first | exact nomatch (show false = true from h) | exact ⟨_, rfl, rfl, rfl, rfl⟩
theorem bcc (o : Operand) : Statement (.bcc o) := by
  intro h
  cases o <;> first | exact nomatch (show false = true from h) | exact ⟨_, rfl, rfl, rfl, rfl⟩
theorem bcs (o : Operand) : Statement (.bcs o) := by
  intro h
  cases o <;> first | exact nomatch (show false = true from h) | exact ⟨_, rfl, rfl, rfl, rfl⟩
theorem beq (o : Operand) : Statement (.beq o) := by
  intro h
  cases o <;> first | exact nomatch (show false = true from h) | exact ⟨_, rfl, rfl, rfl, rfl⟩
theorem bit (o : Operand) : Statement (.bit o) := by
  intro h
  cases o <;> first | exact nomatch (show false = true from h) | exact ⟨_, rfl, rfl, rfl, rfl⟩
theorem bmi (o : Operand) : Statement (.bmi o) := by
  intro h
  cases o <;> first | exact nomatch (show false = true from h) | exact ⟨_, rfl, rfl, rfl, rfl⟩
theorem bne (o : Operand) : Statement (.bne o) := by
  intro h
  cases o <;> first | exact nomatch (show false = true from h) | exact ⟨_, rfl, rfl, rfl, rfl⟩
theorem bpl (o : Operand) : Statement (.bpl o) := by
  intro h
  cases o <;> first | exact nomatch (show false = true from h) | exact ⟨_, rfl, rfl, rfl, rfl⟩
theorem brk : Statement .brk := fun _ => ⟨_, rfl, rfl, rfl, rfl⟩
theorem bvc (o : Operand) : Statement (.bvc o) := by
  intro h
  cases o <;> first | exact nomatch (show false = true from h) | exact ⟨_, rfl, rfl, rfl, rfl⟩
theorem bvs (o : Operand) : Statement (.bvs o) := by
  intro h
  cases o <;> first | exact nomatch (show false = true from h) | exact ⟨_, rfl, rfl, rfl, rfl⟩
theorem clc : Statement .clc := fun _ => ⟨_, rfl, rfl, rfl, rfl⟩
theorem cld : Statement .cld := fun _ => ⟨_, rfl, rfl, rfl, rfl⟩
theorem cli : Statement .cli := fun _ => ⟨_, rfl, rfl, rfl, rfl⟩
theorem clv : Statement .clv := fun _ => ⟨_, rfl, rfl, rfl, rfl⟩
theorem cmp (o : Operand) : Statement (.cmp o) := by
  intro h
  cases o <;> first | exact nomatch (show false = true from h) | exact ⟨_, rfl, rfl, rfl, rfl⟩
theorem cpx (o : Operand) : Statement (.cpx o) := by
  intro h
  cases o <;> first | exact nomatch (show false = true from h) | exact ⟨_, rfl, rfl, rfl, rfl⟩
theorem cpy (o : Operand) : Statement (.cpy o) := by
  intro h
  cases o <;> first | exact nomatch (show false = true from h) | exact ⟨_, rfl, rfl, rfl, rfl⟩
theorem dec (o : Operand) : Statement (.dec o) := by
  intro h
  cases o <;> first | exact nomatch (show false = true from h) | exact ⟨_, rfl, rfl, rfl, rfl⟩
theorem dex : Statement .dex := fun _ => ⟨_, rfl, rfl, rfl, rfl⟩
theorem dey : Statement .dey := fun _ => ⟨_, rfl, rfl, rfl, rfl⟩
theorem eor (o : Operand) : Statement (.eor o) := by
  intro h
  cases o <;> first | exact nomatch (show false = true from h) | exact ⟨_, rfl, rfl, rfl, rfl⟩
theorem inc (o : Operand) : Statement (.inc o) := by
  intro h
  cases o <;> first | exact nomatch (show false = true from h) | exact ⟨_, rfl, rfl, rfl, rfl⟩
theorem inx : Statement .inx := fun _ => ⟨_, rfl, rfl, rfl, rfl⟩
theorem iny : Statement .iny := fun _ => ⟨_, rfl, rfl, rfl, rfl⟩
theorem jmp (o : Operand) : Statement (.jmp o) := by
  intro h
  cases o <;> first | exact nomatch (show false = true from h) | exact ⟨_, rfl, rfl, rfl, rfl⟩
theorem jsr (o : Operand) : Statement (.jsr o) := by
  intro h
  cases o <;> first | exact nomatch (show false = true from h) | exact ⟨_, rfl, rfl, rfl, rfl⟩
theorem lda (o : Operand) : Statement (.lda o) := by
  intro h
  cases o <;> first | exact nomatch (show false = true from h) | exact ⟨_, rfl, rfl, rfl, rfl⟩
theorem ldx (o : Operand) : Statement (.ldx o) := by
  intro h
  cases o <;> first | exact nomatch (show false = true from h) | exact ⟨_, rfl, rfl, rfl, rfl⟩
theorem ldy (o : Operand) : Statement (.ldy o) := by
  intro h
  cases o <;> first | exact nomatch (show false = true from h) | exact ⟨_, rfl, rfl, rfl, rfl⟩
theorem lsr (o : Operand) : Statement (.lsr o) := by
  intro h
  cases o <;> first | exact nomatch (show false = true from h) | exact ⟨_, rfl, rfl, rfl, rfl⟩
theorem nop : Statement .nop := fun _ => ⟨_, rfl, rfl, rfl, rfl⟩
theorem ora (o : Operand) : Statement (.ora o) := by
  intro h
  cases o <;> first | exact nomatch (show false = true from h) | exact ⟨_, rfl, rfl, rfl, rfl⟩
theorem pha : Statement .pha := fun _ => ⟨_, rfl, rfl, rfl, rfl⟩
theorem php : Statement .php := fun _ => ⟨_, rfl, rfl, rfl, rfl⟩
theorem pla : Statement .pla := fun _ => ⟨_, rfl, rfl, rfl, rfl⟩
theorem plp : Statement .plp := fun _ => ⟨_, rfl, rfl, rfl, rfl⟩
theorem rol (o : Operand) : Statement (.rol o) := by
  intro h
  cases o <;> first | exact nomatch (show false = true from h) | exact ⟨_, rfl, rfl, rfl, rfl⟩
theorem ror (o : Operand) : Statement (.ror o) := by
  intro h
  cases o <;> first | exact nomatch (show false = true from h) | exact ⟨_, rfl, rfl, rfl, rfl⟩
theorem rti : Statement .rti := fun _ => ⟨_, rfl, rfl, rfl, rfl⟩
theorem rts : Statement .rts := fun _ => ⟨_, rfl, rfl, rfl, rfl⟩
theorem sbc (o : Operand) : Statement (.sbc o) := by
  intro h
  cases o <;> first | exact nomatch (show false = true from h) | exact ⟨_, rfl, rfl, rfl, rfl⟩
theorem sec : Statement .sec := fun _ => ⟨_, rfl, rfl, rfl, rfl⟩
theorem sed : Statement .sed := fun _ => ⟨_, rfl, rfl, rfl, rfl⟩
theorem sei : Statement .sei := fun _ => ⟨_, rfl, rfl, rfl, rfl⟩
theorem sta (o : Operand) : Statement (.sta o) := by
  intro h
  cases o <;> first | exact nomatch (show false = true from h) | exact ⟨_, rfl, rfl, rfl, rfl⟩
theorem stx (o : Operand) : Statement (.stx o) := by
  intro h
  cases o <;> first | exact nomatch (show false = true from h) | exact ⟨_, rfl, rfl, rfl, rfl⟩
theorem sty (o : Operand) : Statement (.sty o) := by
  intro h
  cases o <;> first | exact nomatch (show false = true from h) | exact ⟨_, rfl, rfl, rfl, rfl⟩
theorem tax : Statement .tax := fun _ => ⟨_, rfl, rfl, rfl, rfl⟩
theorem tay : Statement .tay := fun _ => ⟨_, rfl, rfl, rfl, rfl⟩
theorem tsx : Statement .tsx := fun _ => ⟨_, rfl, rfl, rfl, rfl⟩
theorem txa : Statement .txa := fun _ => ⟨_, rfl, rfl, rfl, rfl⟩
theorem txs : Statement .txs := fun _ => ⟨_, rfl, rfl, rfl, rfl⟩
theorem tya : Statement .tya := fun _ => ⟨_, rfl, rfl, rfl, rfl⟩
theorem sbcEB (o : Operand) : Statement (.sbcEB o) := by
  intro h
  cases o <;> first | exact nomatch (show false = true from h) | exact ⟨_, rfl, rfl, rfl, rfl⟩
theorem xxx (op : Byte) : Statement (.xxx op) := by
  intro h
  have key : ∀ b ∈ undocumented, (descriptor b).operation = .xxx ∧ (descriptor b).mode = .imp := by decide
  have hm : op ∈ undocumented := List.contains_iff_mem.mp h
  obtain ⟨h1, h2⟩ := key op hm
  refine ⟨op, ?_, h1, h2, ?_⟩
  · simp only [Instr.wf] at h
    simp only [Instr.opcode, h, if_true]
  · simp only [instrOf, h1]

end Sys2Proof.Laws.OpcodeLaw
end

