-- ==== Sys2Proof/Laws/Decode.lean ====
section
/-! SUPPORT. Small laws of the decode table and of bytes and words. -/

namespace Sys2Proof

/-! ## Bytes and words as numbers (00_scope.md R9) -/

theorem toNat_w16 (h l : Byte) : (w16 h l).toNat = h.toNat * 256 + l.toNat := by
  have := l.isLt
  rw [w16, BitVec.toNat_append, ← Nat.shiftLeft_add_eq_or_of_lt this, Nat.shiftLeft_eq]

theorem toNat_zext16 (d : Byte) : (zext16 d).toNat = d.toNat := by
  have := d.isLt
  simp only [zext16, BitVec.toNat_setWidth]
  omega

theorem toNat_hi (w : Addr) : (hi w).toNat = w.toNat / 256 := by
  have := w.isLt
  simp only [hi, BitVec.toNat_setWidth, BitVec.toNat_ushiftRight, Nat.shiftRight_eq_div_pow]
  omega

theorem toNat_lo (w : Addr) : (lo w).toNat = w.toNat % 256 := by
  simp [lo]

/-- A word is assembled from its bytes. -/
@[simp] theorem w16_hi_lo (w : Addr) : w16 (hi w) (lo w) = w := by
  apply BitVec.eq_of_toNat_eq
  rw [toNat_w16, toNat_hi, toNat_lo]
  omega

@[simp] theorem lo_w16 (h l : Byte) : lo (w16 h l) = l := by
  apply BitVec.eq_of_toNat_eq
  have := l.isLt
  rw [toNat_lo, toNat_w16]
  omega

@[simp] theorem hi_w16 (h l : Byte) : hi (w16 h l) = h := by
  apply BitVec.eq_of_toNat_eq
  have := l.isLt
  rw [toNat_hi, toNat_w16]
  omega

/-! ## The decode table -/

/-- The opcode map has an entry for every opcode (R84). -/
theorem length_opcodeMap : opcodeMap.length = 256 := by
  simp only [opcodeMap, List.length_append]
  rfl

/-- A property of every row of the map is a property of every descriptor. -/
theorem descriptor_of_rows {P : Descriptor → Prop} (h : ∀ d ∈ opcodeMap, P d) (op : Byte) : P (descriptor op) := by
  have hlt : op.toNat < opcodeMap.length := by
    rw [length_opcodeMap]
    exact op.isLt
  unfold descriptor
  rw [List.getD_eq_getElem _ _ hlt]
  exact h _ (List.getElem_mem hlt)

/-- `UNDOC_CYCLES` lies in 2..=8 (R8). -/
theorem undocCycles_bounds (op : Byte) : 2 ≤ Config.undocCycles op ∧ Config.undocCycles op ≤ 8 := by
  have := (Config.undocExtra op).isLt
  unfold Config.undocCycles
  omega

/-! ## Well-formed instructions have opcodes -/

/-- An instruction is well-formed exactly when it has an opcode. -/
theorem opcode_isSome_iff_wf (i : Instr) : i.opcode.isSome = true ↔ i.wf = true := by
  cases i <;> first
    | exact Iff.rfl
    | (rename_i o; cases o <;> exact Iff.rfl)
    | (rename_i o; simp only [Instr.opcode, Instr.wf]; split <;> simp_all)

/-- A well-formed instruction has an opcode. -/
theorem opcode_of_wf {i : Instr} (h : i.wf = true) : ∃ b, i.opcode = some b :=
  Option.isSome_iff_exists.mp ((opcode_isSome_iff_wf i).mpr h)

/-! ## The map and the listing agree (R87, R88) -/

/-- The per-instruction laws of `Sys2Proof.Laws.OpcodeLaw`, for any instruction. -/
theorem opcode_law (i : Instr) : Laws.OpcodeLaw.Statement i := by
  cases i with
  | adc o => exact Laws.OpcodeLaw.adc o
  | and o => exact Laws.OpcodeLaw.and o
  | asl o => exact Laws.OpcodeLaw.asl o
  | bcc o => exact Laws.OpcodeLaw.bcc o
  | bcs o => exact Laws.OpcodeLaw.bcs o
  | beq o => exact Laws.OpcodeLaw.beq o
  | bit o => exact Laws.OpcodeLaw.bit o
  | bmi o => exact Laws.OpcodeLaw.bmi o
  | bne o => exact Laws.OpcodeLaw.bne o
  | bpl o => exact Laws.OpcodeLaw.bpl o
  | brk => exact Laws.OpcodeLaw.brk
  | bvc o => exact Laws.OpcodeLaw.bvc o
  | bvs o => exact Laws.OpcodeLaw.bvs o
  | clc => exact Laws.OpcodeLaw.clc
  | cld => exact Laws.OpcodeLaw.cld
  | cli => exact Laws.OpcodeLaw.cli
  | clv => exact Laws.OpcodeLaw.clv
  | cmp o => exact Laws.OpcodeLaw.cmp o
  | cpx o => exact Laws.OpcodeLaw.cpx o
  | cpy o => exact Laws.OpcodeLaw.cpy o
  | dec o => exact Laws.OpcodeLaw.dec o
  | dex => exact Laws.OpcodeLaw.dex
  | dey => exact Laws.OpcodeLaw.dey
  | eor o => exact Laws.OpcodeLaw.eor o
  | inc o => exact Laws.OpcodeLaw.inc o
  | inx => exact Laws.OpcodeLaw.inx
  | iny => exact Laws.OpcodeLaw.iny
  | jmp o => exact Laws.OpcodeLaw.jmp o
  | jsr o => exact Laws.OpcodeLaw.jsr o
  | lda o => exact Laws.OpcodeLaw.lda o
  | ldx o => exact Laws.OpcodeLaw.ldx o
  | ldy o => exact Laws.OpcodeLaw.ldy o
  | lsr o => exact Laws.OpcodeLaw.lsr o
  | nop => exact Laws.OpcodeLaw.nop
  | ora o => exact Laws.OpcodeLaw.ora o
  | pha => exact Laws.OpcodeLaw.pha
  | php => exact Laws.OpcodeLaw.php
  | pla => exact Laws.OpcodeLaw.pla
  | plp => exact Laws.OpcodeLaw.plp
  | rol o => exact Laws.OpcodeLaw.rol o
  | ror o => exact Laws.OpcodeLaw.ror o
  | rti => exact Laws.OpcodeLaw.rti
  | rts => exact Laws.OpcodeLaw.rts
  | sbc o => exact Laws.OpcodeLaw.sbc o
  | sec => exact Laws.OpcodeLaw.sec
  | sed => exact Laws.OpcodeLaw.sed
  | sei => exact Laws.OpcodeLaw.sei
  | sta o => exact Laws.OpcodeLaw.sta o
  | stx o => exact Laws.OpcodeLaw.stx o
  | sty o => exact Laws.OpcodeLaw.sty o
  | tax => exact Laws.OpcodeLaw.tax
  | tay => exact Laws.OpcodeLaw.tay
  | tsx => exact Laws.OpcodeLaw.tsx
  | txa => exact Laws.OpcodeLaw.txa
  | txs => exact Laws.OpcodeLaw.txs
  | tya => exact Laws.OpcodeLaw.tya
  | sbcEB o => exact Laws.OpcodeLaw.sbcEB o
  | xxx op => exact Laws.OpcodeLaw.xxx op

@[simp] theorem mode_operandOf (m : Mode) (b1 b2 : Byte) : (operandOf m b1 b2).mode = m := by cases m <;> rfl

/-- The bytes of an assembled operand are the bytes it was assembled from (R82, R94). -/
theorem bytes_operandOf (m : Mode) (b1 b2 : Byte) : (operandOf m b1 b2).bytes = [b1, b2].take m.operandBytes := by
  cases m <;> simp [operandOf, Operand.bytes, Mode.operandBytes]

/-- The instruction an opcode stands for has the operation of its descriptor. -/
theorem instrOf_operation (op : Byte) (o : Operand) : (instrOf op o).operation = (descriptor op).operation := by
  unfold instrOf
  cases (descriptor op).operation
  case sbc => dsimp only; split <;> rfl
  all_goals rfl

/-- Whether an opcode and an operand are an instruction, and of which opcode, depends on the operand's mode alone. -/
theorem instrOf_congr (op : Byte) {o o' : Operand} (h : o.mode = o'.mode) :
    (instrOf op o).wf = (instrOf op o').wf ∧ (instrOf op o).opcode = (instrOf op o').opcode ∧
      ((instrOf op o).operand = o ∨ (instrOf op o).operand = .imp ∧ (instrOf op o').operand = .imp) := by
  unfold instrOf
  cases (descriptor op).operation
  case sbc =>
    dsimp only
    split
    · simp [Instr.wf, Instr.opcode, Instr.operand, h]
    · exact ⟨by simp [Instr.wf, h], by simp [Instr.opcode, Instr.operand, Instr.operation, h], .inl rfl⟩
  all_goals simp [Instr.wf, Instr.opcode, Instr.operand, Instr.operation, h]

/-- The same for every opcode with operand bytes of zeros, which is a finite question. -/
theorem instrOf_zero (op : Byte) :
    (instrOf op (operandOf (descriptor op).mode 0 0)).wf = true ∧
      (instrOf op (operandOf (descriptor op).mode 0 0)).opcode = some op ∧
      (instrOf op (operandOf (descriptor op).mode 0 0)).operand = operandOf (descriptor op).mode 0 0 := by
  revert op
  decide +kernel

/-- Every opcode with its operand bytes is a well-formed instruction, whose opcode and operand are the ones read (R87
against R88, R90, R91). -/
theorem instrOf_law (op b1 b2 : Byte) :
    (instrOf op (operandOf (descriptor op).mode b1 b2)).wf = true ∧
      (instrOf op (operandOf (descriptor op).mode b1 b2)).opcode = some op ∧
      (instrOf op (operandOf (descriptor op).mode b1 b2)).operand = operandOf (descriptor op).mode b1 b2 := by
  obtain ⟨k1, k2, k3⟩ := instrOf_zero op
  obtain ⟨c1, c2, c3⟩ := instrOf_congr op
    (o := operandOf (descriptor op).mode b1 b2) (o' := operandOf (descriptor op).mode 0 0) (by simp)
  refine ⟨c1.trans k1, c2.trans k2, ?_⟩
  rcases c3 with c | ⟨c, c'⟩
  · exact c
  · have hm : Mode.imp = (descriptor op).mode := by
      have := congrArg Operand.mode (c'.symm.trans k3)
      rwa [mode_operandOf] at this
    rw [c, ← hm]
    rfl

/-- The base cycles of every descriptor lie in 2..=8 (R84). -/
theorem descriptor_cycles (op : Byte) : 2 ≤ (descriptor op).baseCycles ∧ (descriptor op).baseCycles ≤ 8 := by
  apply descriptor_of_rows (P := fun d => 2 ≤ d.baseCycles ∧ d.baseCycles ≤ 8)
  have hu : ∀ op, 2 ≤ (undocEntry op).baseCycles ∧ (undocEntry op).baseCycles ≤ 8 := undocCycles_bounds
  simp only [opcodeMap, List.forall_mem_append]
  refine ⟨⟨⟨⟨⟨⟨⟨⟨⟨⟨⟨⟨⟨⟨⟨?_, ?_⟩, ?_⟩, ?_⟩, ?_⟩, ?_⟩, ?_⟩, ?_⟩, ?_⟩, ?_⟩, ?_⟩, ?_⟩, ?_⟩, ?_⟩, ?_⟩, ?_⟩
  · simp [mapRow0, hu, documented]
  · simp [mapRow1, hu, documented]
  · simp [mapRow2, hu, documented]
  · simp [mapRow3, hu, documented]
  · simp [mapRow4, hu, documented]
  · simp [mapRow5, hu, documented]
  · simp [mapRow6, hu, documented]
  · simp [mapRow7, hu, documented]
  · simp [mapRow8, hu, documented]
  · simp [mapRow9, hu, documented]
  · simp [mapRowA, hu, documented]
  · simp [mapRowB, hu, documented]
  · simp [mapRowC, hu, documented]
  · simp [mapRowD, hu, documented]
  · simp [mapRowE, hu, documented, entryEB]
  · simp [mapRowF, hu, documented]

end Sys2Proof
end

