-- ==== Sys2Proof/Laws/Memory.lean ====
section
/-! SUPPORT. The laws of the RAM: reading after writing, and that every memory operation keeps the canonical form. -/

namespace Sys2Proof.Machine

/-- A canonical list from a higher address on is one from a lower address on. -/
theorem memWfFrom_mono {bound lo hi : Nat} (h : lo ≤ hi) :
    ∀ {m : List Host.Cell}, memWfFrom bound hi m = true → memWfFrom bound lo m = true
  | [], _ => rfl
  | (k, v) :: m, hm => by
    simp only [memWfFrom, Bool.and_eq_true, decide_eq_true_eq] at hm ⊢
    exact ⟨⟨⟨by omega, hm.1.1.2⟩, hm.1.2⟩, hm.2⟩

/-- A canonical list reads as blank below its first address. -/
theorem memRead_below {bound least a : Nat} (h : a < least) :
    ∀ {m : List Host.Cell}, memWfFrom bound least m = true → memRead m a = memBlank
  | [], _ => rfl
  | (k, v) :: m, hm => by
    simp only [memWfFrom, Bool.and_eq_true, decide_eq_true_eq] at hm
    have hne : a ≠ k := by omega
    simp only [memRead, if_neg hne]
    exact memRead_below (by omega) hm.2

theorem memRead_memCons {bound a : Nat} {m : List Host.Cell} (hm : memWfFrom bound (a + 1) m = true) (v : Byte) (b : Nat) :
    memRead (memCons a v m) b = if b = a then v else memRead m b := by
  unfold memCons
  split
  · rename_i hv
    split
    · rename_i hb
      rw [memRead_below (by omega) hm, hv]
    · rfl
  · rfl

theorem memWfFrom_memCons {bound a : Nat} {m : List Host.Cell} (ha : a < bound) (hm : memWfFrom bound (a + 1) m = true)
    (v : Byte) : memWfFrom bound a (memCons a v m) = true := by
  unfold memCons
  split
  · exact memWfFrom_mono (by omega) hm
  · rename_i hv
    simp [memWfFrom, ha, hm, hv]

/-- A read after a write: the byte written, and every other byte as before (R55). -/
theorem memRead_memWrite {bound : Nat} (a : Nat) (v : Byte) (b : Nat) :
    ∀ {least : Nat} {m : List Host.Cell}, memWfFrom bound least m = true →
      memRead (memWrite m a v) b = if b = a then v else memRead m b
  | _, [], _ => memRead_memCons (bound := bound) (a := a) rfl v b
  | least, (k, w) :: m, hm => by
    simp only [memWfFrom, Bool.and_eq_true, decide_eq_true_eq] at hm
    simp only [memWrite]
    split
    · rename_i hlt
      refine memRead_memCons (bound := bound) ?_ v b
      simp only [memWfFrom, Bool.and_eq_true, decide_eq_true_eq]
      exact ⟨⟨⟨by omega, hm.1.1.2⟩, hm.1.2⟩, hm.2⟩
    · split
      · rename_i _ heq
        subst heq
        rw [memRead_memCons (bound := bound) hm.2]
        by_cases hb : b = a <;> simp [memRead, hb]
      · rename_i hge hne
        simp only [memRead]
        rw [memRead_memWrite a v b hm.2]
        by_cases hbk : b = k
        · simp [hbk]
          omega
        · simp [hbk]

/-- A write keeps the canonical form. -/
theorem memWfFrom_memWrite {bound : Nat} {a : Nat} (ha : a < bound) (v : Byte) :
    ∀ {least : Nat} {m : List Host.Cell}, least ≤ a → memWfFrom bound least m = true →
      memWfFrom bound least (memWrite m a v) = true
  | _, [], hl, _ => memWfFrom_mono hl (memWfFrom_memCons ha rfl v)
  | least, (k, w) :: m, hl, hm => by
    have hm' := hm
    simp only [memWfFrom, Bool.and_eq_true, decide_eq_true_eq] at hm
    simp only [memWrite]
    split
    · rename_i hlt
      refine memWfFrom_mono hl (memWfFrom_memCons ha ?_ v)
      simp only [memWfFrom, Bool.and_eq_true, decide_eq_true_eq]
      exact ⟨⟨⟨by omega, hm.1.1.2⟩, hm.1.2⟩, hm.2⟩
    · split
      · rename_i _ heq
        subst heq
        exact memWfFrom_mono hm.1.1.1 (memWfFrom_memCons ha hm.2 v)
      · rename_i hge hne
        simp only [memWfFrom, Bool.and_eq_true, decide_eq_true_eq]
        exact ⟨hm.1, memWfFrom_memWrite ha v (by omega) hm.2⟩

/-- A RAM byte behind an address lies within the bus's RAM. -/
theorem backing_lt {b : Option Bus} {a : Addr} {k : Nat} (h : backing b a = some k) : k < ramSize b := by
  unfold backing at h
  split at h
  · cases h
    exact a.isLt
  · split at h
    · cases h
      exact Nat.mod_lt _ (by decide)
    · cases h
  · cases h
  · cases h

/-- A write of a byte on the bus: the RAM byte behind the address, if any, holds it, and every other byte is as before. -/
theorem memRead_memPut {b : Option Bus} {m : List Host.Cell} (hm : memWf b m = true) (a : Addr) (v : Byte) (k : Nat) :
    memRead (memPut b m a v) k = if backing b a = some k then v else memRead m k := by
  unfold memPut
  cases h : backing b a with
  | none => simp
  | some j =>
    rw [memRead_memWrite j v k hm]
    by_cases hk : k = j
    · simp [hk]
    · have : ¬ j = k := fun e => hk e.symm
      simp [hk, this]

/-- A write of a byte on the bus keeps the canonical form. -/
theorem memWf_memPut {b : Option Bus} {m : List Host.Cell} (hm : memWf b m = true) (a : Addr) (v : Byte) :
    memWf b (memPut b m a v) = true := by
  unfold memPut
  cases h : backing b a with
  | none => exact hm
  | some j => exact memWfFrom_memWrite (backing_lt h) v (Nat.zero_le _) hm

/-- `MEM_INIT` put into an empty RAM is in canonical form. -/
theorem memWf_foldl_memPut {b : Option Bus} (l : List (Addr × Byte)) :
    ∀ {m : List Host.Cell}, memWf b m = true → memWf b (l.foldl (fun m c => memPut b m c.1 c.2) m) = true := by
  induction l with
  | nil => exact fun h => h
  | cons c l ih => exact fun h => ih (memWf_memPut h c.1 c.2)

/-- The reset memory is in canonical form. -/
theorem memWf_reset : memWf State.reset.bus State.reset.mem = true := rfl

end Sys2Proof.Machine
end

