-- ==== Sys2Proof/Laws/State.lean ====
section
/-! SUPPORT. One lemma per field of `State` and per named update of it, so that no proof unfolds a record update. -/

namespace Sys2Proof.Machine

/-! ## `noteTxn` -/

@[simp] theorem noteTxn_pc (t : Txn) (s : State) : (noteTxn t s).pc = s.pc := rfl
@[simp] theorem noteTxn_sp (t : Txn) (s : State) : (noteTxn t s).sp = s.sp := rfl
@[simp] theorem noteTxn_a (t : Txn) (s : State) : (noteTxn t s).a = s.a := rfl
@[simp] theorem noteTxn_x (t : Txn) (s : State) : (noteTxn t s).x = s.x := rfl
@[simp] theorem noteTxn_y (t : Txn) (s : State) : (noteTxn t s).y = s.y := rfl
@[simp] theorem noteTxn_p (t : Txn) (s : State) : (noteTxn t s).p = s.p := rfl
@[simp] theorem noteTxn_opcode (t : Txn) (s : State) : (noteTxn t s).opcode = s.opcode := rfl
@[simp] theorem noteTxn_desc (t : Txn) (s : State) : (noteTxn t s).desc = s.desc := rfl
@[simp] theorem noteTxn_remainingCycles (t : Txn) (s : State) : (noteTxn t s).remainingCycles = s.remainingCycles := rfl
@[simp] theorem noteTxn_inFlight (t : Txn) (s : State) : (noteTxn t s).inFlight = s.inFlight := rfl
@[simp] theorem noteTxn_operandRef (t : Txn) (s : State) : (noteTxn t s).operandRef = s.operandRef := rfl
@[simp] theorem noteTxn_branchOffset (t : Txn) (s : State) : (noteTxn t s).branchOffset = s.branchOffset := rfl
@[simp] theorem noteTxn_pageCrossed (t : Txn) (s : State) : (noteTxn t s).pageCrossed = s.pageCrossed := rfl
@[simp] theorem noteTxn_cyclesElapsed (t : Txn) (s : State) : (noteTxn t s).cyclesElapsed = s.cyclesElapsed := rfl
@[simp] theorem noteTxn_bus (t : Txn) (s : State) : (noteTxn t s).bus = s.bus := rfl
@[simp] theorem noteTxn_mem (t : Txn) (s : State) : (noteTxn t s).mem = s.mem := rfl
@[simp] theorem noteTxn_cfg (t : Txn) (s : State) : (noteTxn t s).cfg = s.cfg := rfl
@[simp] theorem noteTxn_busTime (t : Txn) (s : State) : (noteTxn t s).busTime = s.busTime + 1 := rfl
@[simp] theorem noteTxn_busLog (t : Txn) (s : State) : (noteTxn t s).busLog = s.busLog ++ [t] := rfl
@[simp] theorem noteTxn_hostCalls (t : Txn) (s : State) : (noteTxn t s).hostCalls = s.hostCalls := rfl
@[simp] theorem noteTxn_reply (t : Txn) (s : State) : (noteTxn t s).reply = s.reply := rfl

/-! ## `setRef` -/

@[simp] theorem setRef_pc (r : OperandRef) (s : State) : (setRef r s).pc = s.pc := rfl
@[simp] theorem setRef_sp (r : OperandRef) (s : State) : (setRef r s).sp = s.sp := rfl
@[simp] theorem setRef_a (r : OperandRef) (s : State) : (setRef r s).a = s.a := rfl
@[simp] theorem setRef_x (r : OperandRef) (s : State) : (setRef r s).x = s.x := rfl
@[simp] theorem setRef_y (r : OperandRef) (s : State) : (setRef r s).y = s.y := rfl
@[simp] theorem setRef_p (r : OperandRef) (s : State) : (setRef r s).p = s.p := rfl
@[simp] theorem setRef_opcode (r : OperandRef) (s : State) : (setRef r s).opcode = s.opcode := rfl
@[simp] theorem setRef_desc (r : OperandRef) (s : State) : (setRef r s).desc = s.desc := rfl
@[simp] theorem setRef_remainingCycles (r : OperandRef) (s : State) : (setRef r s).remainingCycles = s.remainingCycles := rfl
@[simp] theorem setRef_inFlight (r : OperandRef) (s : State) : (setRef r s).inFlight = s.inFlight := rfl
@[simp] theorem setRef_operandRef (r : OperandRef) (s : State) : (setRef r s).operandRef = r := rfl
@[simp] theorem setRef_branchOffset (r : OperandRef) (s : State) : (setRef r s).branchOffset = s.branchOffset := rfl
@[simp] theorem setRef_pageCrossed (r : OperandRef) (s : State) : (setRef r s).pageCrossed = s.pageCrossed := rfl
@[simp] theorem setRef_cyclesElapsed (r : OperandRef) (s : State) : (setRef r s).cyclesElapsed = s.cyclesElapsed := rfl
@[simp] theorem setRef_bus (r : OperandRef) (s : State) : (setRef r s).bus = s.bus := rfl
@[simp] theorem setRef_mem (r : OperandRef) (s : State) : (setRef r s).mem = s.mem := rfl
@[simp] theorem setRef_cfg (r : OperandRef) (s : State) : (setRef r s).cfg = s.cfg := rfl
@[simp] theorem setRef_busTime (r : OperandRef) (s : State) : (setRef r s).busTime = s.busTime := rfl
@[simp] theorem setRef_busLog (r : OperandRef) (s : State) : (setRef r s).busLog = s.busLog := rfl
@[simp] theorem setRef_hostCalls (r : OperandRef) (s : State) : (setRef r s).hostCalls = s.hostCalls := rfl
@[simp] theorem setRef_reply (r : OperandRef) (s : State) : (setRef r s).reply = s.reply := rfl

/-! ## `setIndexed` -/

@[simp] theorem setIndexed_pc (b : Addr) (i : Byte) (s : State) : (setIndexed b i s).pc = s.pc := rfl
@[simp] theorem setIndexed_sp (b : Addr) (i : Byte) (s : State) : (setIndexed b i s).sp = s.sp := rfl
@[simp] theorem setIndexed_a (b : Addr) (i : Byte) (s : State) : (setIndexed b i s).a = s.a := rfl
@[simp] theorem setIndexed_x (b : Addr) (i : Byte) (s : State) : (setIndexed b i s).x = s.x := rfl
@[simp] theorem setIndexed_y (b : Addr) (i : Byte) (s : State) : (setIndexed b i s).y = s.y := rfl
@[simp] theorem setIndexed_p (b : Addr) (i : Byte) (s : State) : (setIndexed b i s).p = s.p := rfl
@[simp] theorem setIndexed_opcode (b : Addr) (i : Byte) (s : State) : (setIndexed b i s).opcode = s.opcode := rfl
@[simp] theorem setIndexed_desc (b : Addr) (i : Byte) (s : State) : (setIndexed b i s).desc = s.desc := rfl
@[simp] theorem setIndexed_remainingCycles (b : Addr) (i : Byte) (s : State) : (setIndexed b i s).remainingCycles = s.remainingCycles := rfl
@[simp] theorem setIndexed_inFlight (b : Addr) (i : Byte) (s : State) : (setIndexed b i s).inFlight = s.inFlight := rfl
@[simp] theorem setIndexed_operandRef (b : Addr) (i : Byte) (s : State) : (setIndexed b i s).operandRef = .mem (b + zext16 i) := rfl
@[simp] theorem setIndexed_branchOffset (b : Addr) (i : Byte) (s : State) : (setIndexed b i s).branchOffset = s.branchOffset := rfl
@[simp] theorem setIndexed_pageCrossed (b : Addr) (i : Byte) (s : State) : (setIndexed b i s).pageCrossed = crosses b (b + zext16 i) := rfl
@[simp] theorem setIndexed_cyclesElapsed (b : Addr) (i : Byte) (s : State) : (setIndexed b i s).cyclesElapsed = s.cyclesElapsed := rfl
@[simp] theorem setIndexed_bus (b : Addr) (i : Byte) (s : State) : (setIndexed b i s).bus = s.bus := rfl
@[simp] theorem setIndexed_mem (b : Addr) (i : Byte) (s : State) : (setIndexed b i s).mem = s.mem := rfl
@[simp] theorem setIndexed_cfg (b : Addr) (i : Byte) (s : State) : (setIndexed b i s).cfg = s.cfg := rfl
@[simp] theorem setIndexed_busTime (b : Addr) (i : Byte) (s : State) : (setIndexed b i s).busTime = s.busTime := rfl
@[simp] theorem setIndexed_busLog (b : Addr) (i : Byte) (s : State) : (setIndexed b i s).busLog = s.busLog := rfl
@[simp] theorem setIndexed_hostCalls (b : Addr) (i : Byte) (s : State) : (setIndexed b i s).hostCalls = s.hostCalls := rfl
@[simp] theorem setIndexed_reply (b : Addr) (i : Byte) (s : State) : (setIndexed b i s).reply = s.reply := rfl

/-! ## `enter` -/

@[simp] theorem enter_pc (op : Byte) (s : State) : (enter op s).pc = s.pc := rfl
@[simp] theorem enter_sp (op : Byte) (s : State) : (enter op s).sp = s.sp := rfl
@[simp] theorem enter_a (op : Byte) (s : State) : (enter op s).a = s.a := rfl
@[simp] theorem enter_x (op : Byte) (s : State) : (enter op s).x = s.x := rfl
@[simp] theorem enter_y (op : Byte) (s : State) : (enter op s).y = s.y := rfl
@[simp] theorem enter_p (op : Byte) (s : State) : (enter op s).p = s.p := rfl
@[simp] theorem enter_opcode (op : Byte) (s : State) : (enter op s).opcode = op := rfl
@[simp] theorem enter_desc (op : Byte) (s : State) : (enter op s).desc = some (descriptor op) := rfl
@[simp] theorem enter_remainingCycles (op : Byte) (s : State) : (enter op s).remainingCycles = (descriptor op).baseCycles := rfl
@[simp] theorem enter_inFlight (op : Byte) (s : State) : (enter op s).inFlight = true := rfl
@[simp] theorem enter_operandRef (op : Byte) (s : State) : (enter op s).operandRef = s.operandRef := rfl
@[simp] theorem enter_branchOffset (op : Byte) (s : State) : (enter op s).branchOffset = 0 := rfl
@[simp] theorem enter_pageCrossed (op : Byte) (s : State) : (enter op s).pageCrossed = false := rfl
@[simp] theorem enter_cyclesElapsed (op : Byte) (s : State) : (enter op s).cyclesElapsed = s.cyclesElapsed := rfl
@[simp] theorem enter_bus (op : Byte) (s : State) : (enter op s).bus = s.bus := rfl
@[simp] theorem enter_mem (op : Byte) (s : State) : (enter op s).mem = s.mem := rfl
@[simp] theorem enter_cfg (op : Byte) (s : State) : (enter op s).cfg = s.cfg := rfl
@[simp] theorem enter_busTime (op : Byte) (s : State) : (enter op s).busTime = s.busTime := rfl
@[simp] theorem enter_busLog (op : Byte) (s : State) : (enter op s).busLog = s.busLog := rfl
@[simp] theorem enter_hostCalls (op : Byte) (s : State) : (enter op s).hostCalls = s.hostCalls := rfl
@[simp] theorem enter_reply (op : Byte) (s : State) : (enter op s).reply = s.reply := rfl

/-! ## `passCycles` -/

@[simp] theorem passCycles_pc (s : State) : (passCycles s).pc = s.pc := rfl
@[simp] theorem passCycles_sp (s : State) : (passCycles s).sp = s.sp := rfl
@[simp] theorem passCycles_a (s : State) : (passCycles s).a = s.a := rfl
@[simp] theorem passCycles_x (s : State) : (passCycles s).x = s.x := rfl
@[simp] theorem passCycles_y (s : State) : (passCycles s).y = s.y := rfl
@[simp] theorem passCycles_p (s : State) : (passCycles s).p = s.p := rfl
@[simp] theorem passCycles_opcode (s : State) : (passCycles s).opcode = s.opcode := rfl
@[simp] theorem passCycles_desc (s : State) : (passCycles s).desc = s.desc := rfl
@[simp] theorem passCycles_remainingCycles (s : State) : (passCycles s).remainingCycles = 0 := rfl
@[simp] theorem passCycles_inFlight (s : State) : (passCycles s).inFlight = s.inFlight := rfl
@[simp] theorem passCycles_operandRef (s : State) : (passCycles s).operandRef = s.operandRef := rfl
@[simp] theorem passCycles_branchOffset (s : State) : (passCycles s).branchOffset = s.branchOffset := rfl
@[simp] theorem passCycles_pageCrossed (s : State) : (passCycles s).pageCrossed = s.pageCrossed := rfl
@[simp] theorem passCycles_cyclesElapsed (s : State) : (passCycles s).cyclesElapsed = s.cyclesElapsed + s.remainingCycles := rfl
@[simp] theorem passCycles_bus (s : State) : (passCycles s).bus = s.bus := rfl
@[simp] theorem passCycles_mem (s : State) : (passCycles s).mem = s.mem := rfl
@[simp] theorem passCycles_cfg (s : State) : (passCycles s).cfg = s.cfg := rfl
@[simp] theorem passCycles_busTime (s : State) : (passCycles s).busTime = s.busTime := rfl
@[simp] theorem passCycles_busLog (s : State) : (passCycles s).busLog = s.busLog := rfl
@[simp] theorem passCycles_hostCalls (s : State) : (passCycles s).hostCalls = s.hostCalls := rfl
@[simp] theorem passCycles_reply (s : State) : (passCycles s).reply = s.reply := rfl

/-! ## `putA` -/

@[simp] theorem putA_pc (v : Byte) (s : State) : (putA v s).pc = s.pc := rfl
@[simp] theorem putA_sp (v : Byte) (s : State) : (putA v s).sp = s.sp := rfl
@[simp] theorem putA_a (v : Byte) (s : State) : (putA v s).a = v := rfl
@[simp] theorem putA_x (v : Byte) (s : State) : (putA v s).x = s.x := rfl
@[simp] theorem putA_y (v : Byte) (s : State) : (putA v s).y = s.y := rfl
@[simp] theorem putA_p (v : Byte) (s : State) : (putA v s).p = setZN v s.p := rfl
@[simp] theorem putA_opcode (v : Byte) (s : State) : (putA v s).opcode = s.opcode := rfl
@[simp] theorem putA_desc (v : Byte) (s : State) : (putA v s).desc = s.desc := rfl
@[simp] theorem putA_remainingCycles (v : Byte) (s : State) : (putA v s).remainingCycles = s.remainingCycles := rfl
@[simp] theorem putA_inFlight (v : Byte) (s : State) : (putA v s).inFlight = s.inFlight := rfl
@[simp] theorem putA_operandRef (v : Byte) (s : State) : (putA v s).operandRef = s.operandRef := rfl
@[simp] theorem putA_branchOffset (v : Byte) (s : State) : (putA v s).branchOffset = s.branchOffset := rfl
@[simp] theorem putA_pageCrossed (v : Byte) (s : State) : (putA v s).pageCrossed = s.pageCrossed := rfl
@[simp] theorem putA_cyclesElapsed (v : Byte) (s : State) : (putA v s).cyclesElapsed = s.cyclesElapsed := rfl
@[simp] theorem putA_bus (v : Byte) (s : State) : (putA v s).bus = s.bus := rfl
@[simp] theorem putA_mem (v : Byte) (s : State) : (putA v s).mem = s.mem := rfl
@[simp] theorem putA_cfg (v : Byte) (s : State) : (putA v s).cfg = s.cfg := rfl
@[simp] theorem putA_busTime (v : Byte) (s : State) : (putA v s).busTime = s.busTime := rfl
@[simp] theorem putA_busLog (v : Byte) (s : State) : (putA v s).busLog = s.busLog := rfl
@[simp] theorem putA_hostCalls (v : Byte) (s : State) : (putA v s).hostCalls = s.hostCalls := rfl
@[simp] theorem putA_reply (v : Byte) (s : State) : (putA v s).reply = s.reply := rfl

/-! ## `putX` -/

@[simp] theorem putX_pc (v : Byte) (s : State) : (putX v s).pc = s.pc := rfl
@[simp] theorem putX_sp (v : Byte) (s : State) : (putX v s).sp = s.sp := rfl
@[simp] theorem putX_a (v : Byte) (s : State) : (putX v s).a = s.a := rfl
@[simp] theorem putX_x (v : Byte) (s : State) : (putX v s).x = v := rfl
@[simp] theorem putX_y (v : Byte) (s : State) : (putX v s).y = s.y := rfl
@[simp] theorem putX_p (v : Byte) (s : State) : (putX v s).p = setZN v s.p := rfl
@[simp] theorem putX_opcode (v : Byte) (s : State) : (putX v s).opcode = s.opcode := rfl
@[simp] theorem putX_desc (v : Byte) (s : State) : (putX v s).desc = s.desc := rfl
@[simp] theorem putX_remainingCycles (v : Byte) (s : State) : (putX v s).remainingCycles = s.remainingCycles := rfl
@[simp] theorem putX_inFlight (v : Byte) (s : State) : (putX v s).inFlight = s.inFlight := rfl
@[simp] theorem putX_operandRef (v : Byte) (s : State) : (putX v s).operandRef = s.operandRef := rfl
@[simp] theorem putX_branchOffset (v : Byte) (s : State) : (putX v s).branchOffset = s.branchOffset := rfl
@[simp] theorem putX_pageCrossed (v : Byte) (s : State) : (putX v s).pageCrossed = s.pageCrossed := rfl
@[simp] theorem putX_cyclesElapsed (v : Byte) (s : State) : (putX v s).cyclesElapsed = s.cyclesElapsed := rfl
@[simp] theorem putX_bus (v : Byte) (s : State) : (putX v s).bus = s.bus := rfl
@[simp] theorem putX_mem (v : Byte) (s : State) : (putX v s).mem = s.mem := rfl
@[simp] theorem putX_cfg (v : Byte) (s : State) : (putX v s).cfg = s.cfg := rfl
@[simp] theorem putX_busTime (v : Byte) (s : State) : (putX v s).busTime = s.busTime := rfl
@[simp] theorem putX_busLog (v : Byte) (s : State) : (putX v s).busLog = s.busLog := rfl
@[simp] theorem putX_hostCalls (v : Byte) (s : State) : (putX v s).hostCalls = s.hostCalls := rfl
@[simp] theorem putX_reply (v : Byte) (s : State) : (putX v s).reply = s.reply := rfl

/-! ## `putY` -/

@[simp] theorem putY_pc (v : Byte) (s : State) : (putY v s).pc = s.pc := rfl
@[simp] theorem putY_sp (v : Byte) (s : State) : (putY v s).sp = s.sp := rfl
@[simp] theorem putY_a (v : Byte) (s : State) : (putY v s).a = s.a := rfl
@[simp] theorem putY_x (v : Byte) (s : State) : (putY v s).x = s.x := rfl
@[simp] theorem putY_y (v : Byte) (s : State) : (putY v s).y = v := rfl
@[simp] theorem putY_p (v : Byte) (s : State) : (putY v s).p = setZN v s.p := rfl
@[simp] theorem putY_opcode (v : Byte) (s : State) : (putY v s).opcode = s.opcode := rfl
@[simp] theorem putY_desc (v : Byte) (s : State) : (putY v s).desc = s.desc := rfl
@[simp] theorem putY_remainingCycles (v : Byte) (s : State) : (putY v s).remainingCycles = s.remainingCycles := rfl
@[simp] theorem putY_inFlight (v : Byte) (s : State) : (putY v s).inFlight = s.inFlight := rfl
@[simp] theorem putY_operandRef (v : Byte) (s : State) : (putY v s).operandRef = s.operandRef := rfl
@[simp] theorem putY_branchOffset (v : Byte) (s : State) : (putY v s).branchOffset = s.branchOffset := rfl
@[simp] theorem putY_pageCrossed (v : Byte) (s : State) : (putY v s).pageCrossed = s.pageCrossed := rfl
@[simp] theorem putY_cyclesElapsed (v : Byte) (s : State) : (putY v s).cyclesElapsed = s.cyclesElapsed := rfl
@[simp] theorem putY_bus (v : Byte) (s : State) : (putY v s).bus = s.bus := rfl
@[simp] theorem putY_mem (v : Byte) (s : State) : (putY v s).mem = s.mem := rfl
@[simp] theorem putY_cfg (v : Byte) (s : State) : (putY v s).cfg = s.cfg := rfl
@[simp] theorem putY_busTime (v : Byte) (s : State) : (putY v s).busTime = s.busTime := rfl
@[simp] theorem putY_busLog (v : Byte) (s : State) : (putY v s).busLog = s.busLog := rfl
@[simp] theorem putY_hostCalls (v : Byte) (s : State) : (putY v s).hostCalls = s.hostCalls := rfl
@[simp] theorem putY_reply (v : Byte) (s : State) : (putY v s).reply = s.reply := rfl

/-! ## `putResult` -/

@[simp] theorem putResult_pc (r : AdderResult) (s : State) : (putResult r s).pc = s.pc := rfl
@[simp] theorem putResult_sp (r : AdderResult) (s : State) : (putResult r s).sp = s.sp := rfl
@[simp] theorem putResult_a (r : AdderResult) (s : State) : (putResult r s).a = r.res := rfl
@[simp] theorem putResult_x (r : AdderResult) (s : State) : (putResult r s).x = s.x := rfl
@[simp] theorem putResult_y (r : AdderResult) (s : State) : (putResult r s).y = s.y := rfl
@[simp] theorem putResult_p (r : AdderResult) (s : State) : (putResult r s).p = putSum r s.p := rfl
@[simp] theorem putResult_opcode (r : AdderResult) (s : State) : (putResult r s).opcode = s.opcode := rfl
@[simp] theorem putResult_desc (r : AdderResult) (s : State) : (putResult r s).desc = s.desc := rfl
@[simp] theorem putResult_remainingCycles (r : AdderResult) (s : State) : (putResult r s).remainingCycles = s.remainingCycles := rfl
@[simp] theorem putResult_inFlight (r : AdderResult) (s : State) : (putResult r s).inFlight = s.inFlight := rfl
@[simp] theorem putResult_operandRef (r : AdderResult) (s : State) : (putResult r s).operandRef = s.operandRef := rfl
@[simp] theorem putResult_branchOffset (r : AdderResult) (s : State) : (putResult r s).branchOffset = s.branchOffset := rfl
@[simp] theorem putResult_pageCrossed (r : AdderResult) (s : State) : (putResult r s).pageCrossed = s.pageCrossed := rfl
@[simp] theorem putResult_cyclesElapsed (r : AdderResult) (s : State) : (putResult r s).cyclesElapsed = s.cyclesElapsed := rfl
@[simp] theorem putResult_bus (r : AdderResult) (s : State) : (putResult r s).bus = s.bus := rfl
@[simp] theorem putResult_mem (r : AdderResult) (s : State) : (putResult r s).mem = s.mem := rfl
@[simp] theorem putResult_cfg (r : AdderResult) (s : State) : (putResult r s).cfg = s.cfg := rfl
@[simp] theorem putResult_busTime (r : AdderResult) (s : State) : (putResult r s).busTime = s.busTime := rfl
@[simp] theorem putResult_busLog (r : AdderResult) (s : State) : (putResult r s).busLog = s.busLog := rfl
@[simp] theorem putResult_hostCalls (r : AdderResult) (s : State) : (putResult r s).hostCalls = s.hostCalls := rfl
@[simp] theorem putResult_reply (r : AdderResult) (s : State) : (putResult r s).reply = s.reply := rfl

/-! ## `clearTransient` -/

@[simp] theorem clearTransient_pc (s : State) : (clearTransient s).pc = s.pc := rfl
@[simp] theorem clearTransient_sp (s : State) : (clearTransient s).sp = s.sp := rfl
@[simp] theorem clearTransient_a (s : State) : (clearTransient s).a = s.a := rfl
@[simp] theorem clearTransient_x (s : State) : (clearTransient s).x = s.x := rfl
@[simp] theorem clearTransient_y (s : State) : (clearTransient s).y = s.y := rfl
@[simp] theorem clearTransient_p (s : State) : (clearTransient s).p = s.p := rfl
@[simp] theorem clearTransient_opcode (s : State) : (clearTransient s).opcode = 0x00 := rfl
@[simp] theorem clearTransient_desc (s : State) : (clearTransient s).desc = none := rfl
@[simp] theorem clearTransient_remainingCycles (s : State) : (clearTransient s).remainingCycles = s.remainingCycles := rfl
@[simp] theorem clearTransient_inFlight (s : State) : (clearTransient s).inFlight = false := rfl
@[simp] theorem clearTransient_operandRef (s : State) : (clearTransient s).operandRef = .regA := rfl
@[simp] theorem clearTransient_branchOffset (s : State) : (clearTransient s).branchOffset = 0 := rfl
@[simp] theorem clearTransient_pageCrossed (s : State) : (clearTransient s).pageCrossed = false := rfl
@[simp] theorem clearTransient_cyclesElapsed (s : State) : (clearTransient s).cyclesElapsed = s.cyclesElapsed := rfl
@[simp] theorem clearTransient_bus (s : State) : (clearTransient s).bus = s.bus := rfl
@[simp] theorem clearTransient_mem (s : State) : (clearTransient s).mem = s.mem := rfl
@[simp] theorem clearTransient_cfg (s : State) : (clearTransient s).cfg = s.cfg := rfl
@[simp] theorem clearTransient_busTime (s : State) : (clearTransient s).busTime = s.busTime := rfl
@[simp] theorem clearTransient_busLog (s : State) : (clearTransient s).busLog = s.busLog := rfl
@[simp] theorem clearTransient_hostCalls (s : State) : (clearTransient s).hostCalls = s.hostCalls := rfl
@[simp] theorem clearTransient_reply (s : State) : (clearTransient s).reply = s.reply := rfl

/-! ## `clearPorts` -/

@[simp] theorem clearPorts_pc (s : State) : (clearPorts s).pc = s.pc := rfl
@[simp] theorem clearPorts_sp (s : State) : (clearPorts s).sp = s.sp := rfl
@[simp] theorem clearPorts_a (s : State) : (clearPorts s).a = s.a := rfl
@[simp] theorem clearPorts_x (s : State) : (clearPorts s).x = s.x := rfl
@[simp] theorem clearPorts_y (s : State) : (clearPorts s).y = s.y := rfl
@[simp] theorem clearPorts_p (s : State) : (clearPorts s).p = s.p := rfl
@[simp] theorem clearPorts_opcode (s : State) : (clearPorts s).opcode = s.opcode := rfl
@[simp] theorem clearPorts_desc (s : State) : (clearPorts s).desc = s.desc := rfl
@[simp] theorem clearPorts_remainingCycles (s : State) : (clearPorts s).remainingCycles = s.remainingCycles := rfl
@[simp] theorem clearPorts_inFlight (s : State) : (clearPorts s).inFlight = s.inFlight := rfl
@[simp] theorem clearPorts_operandRef (s : State) : (clearPorts s).operandRef = s.operandRef := rfl
@[simp] theorem clearPorts_branchOffset (s : State) : (clearPorts s).branchOffset = s.branchOffset := rfl
@[simp] theorem clearPorts_pageCrossed (s : State) : (clearPorts s).pageCrossed = s.pageCrossed := rfl
@[simp] theorem clearPorts_cyclesElapsed (s : State) : (clearPorts s).cyclesElapsed = s.cyclesElapsed := rfl
@[simp] theorem clearPorts_bus (s : State) : (clearPorts s).bus = s.bus := rfl
@[simp] theorem clearPorts_mem (s : State) : (clearPorts s).mem = s.mem := rfl
@[simp] theorem clearPorts_cfg (s : State) : (clearPorts s).cfg = s.cfg := rfl
@[simp] theorem clearPorts_busTime (s : State) : (clearPorts s).busTime = s.busTime := rfl
@[simp] theorem clearPorts_busLog (s : State) : (clearPorts s).busLog = [] := rfl
@[simp] theorem clearPorts_hostCalls (s : State) : (clearPorts s).hostCalls = s.hostCalls := rfl
@[simp] theorem clearPorts_reply (s : State) : (clearPorts s).reply = none := rfl

/-! ## `putState` -/

@[simp] theorem putState_pc (r : Snapshot) (s : State) : (putState r s).pc = r.pc := rfl
@[simp] theorem putState_sp (r : Snapshot) (s : State) : (putState r s).sp = r.sp := rfl
@[simp] theorem putState_a (r : Snapshot) (s : State) : (putState r s).a = r.a := rfl
@[simp] theorem putState_x (r : Snapshot) (s : State) : (putState r s).x = r.x := rfl
@[simp] theorem putState_y (r : Snapshot) (s : State) : (putState r s).y = r.y := rfl
@[simp] theorem putState_p (r : Snapshot) (s : State) : (putState r s).p = r.p := rfl
@[simp] theorem putState_opcode (r : Snapshot) (s : State) : (putState r s).opcode = s.opcode := rfl
@[simp] theorem putState_desc (r : Snapshot) (s : State) : (putState r s).desc = s.desc := rfl
@[simp] theorem putState_remainingCycles (r : Snapshot) (s : State) : (putState r s).remainingCycles = s.remainingCycles := rfl
@[simp] theorem putState_inFlight (r : Snapshot) (s : State) : (putState r s).inFlight = s.inFlight := rfl
@[simp] theorem putState_operandRef (r : Snapshot) (s : State) : (putState r s).operandRef = s.operandRef := rfl
@[simp] theorem putState_branchOffset (r : Snapshot) (s : State) : (putState r s).branchOffset = s.branchOffset := rfl
@[simp] theorem putState_pageCrossed (r : Snapshot) (s : State) : (putState r s).pageCrossed = s.pageCrossed := rfl
@[simp] theorem putState_cyclesElapsed (r : Snapshot) (s : State) : (putState r s).cyclesElapsed = s.cyclesElapsed := rfl
@[simp] theorem putState_bus (r : Snapshot) (s : State) : (putState r s).bus = s.bus := rfl
@[simp] theorem putState_mem (r : Snapshot) (s : State) : (putState r s).mem = s.mem := rfl
@[simp] theorem putState_cfg (r : Snapshot) (s : State) : (putState r s).cfg = s.cfg := rfl
@[simp] theorem putState_busTime (r : Snapshot) (s : State) : (putState r s).busTime = s.busTime := rfl
@[simp] theorem putState_busLog (r : Snapshot) (s : State) : (putState r s).busLog = s.busLog := rfl
@[simp] theorem putState_hostCalls (r : Snapshot) (s : State) : (putState r s).hostCalls = s.hostCalls := rfl
@[simp] theorem putState_reply (r : Snapshot) (s : State) : (putState r s).reply = s.reply := rfl

/-! ## `reportCycles` -/

@[simp] theorem reportCycles_pc (s t : State) : (reportCycles s t).pc = t.pc := rfl
@[simp] theorem reportCycles_sp (s t : State) : (reportCycles s t).sp = t.sp := rfl
@[simp] theorem reportCycles_a (s t : State) : (reportCycles s t).a = t.a := rfl
@[simp] theorem reportCycles_x (s t : State) : (reportCycles s t).x = t.x := rfl
@[simp] theorem reportCycles_y (s t : State) : (reportCycles s t).y = t.y := rfl
@[simp] theorem reportCycles_p (s t : State) : (reportCycles s t).p = t.p := rfl
@[simp] theorem reportCycles_opcode (s t : State) : (reportCycles s t).opcode = t.opcode := rfl
@[simp] theorem reportCycles_desc (s t : State) : (reportCycles s t).desc = t.desc := rfl
@[simp] theorem reportCycles_remainingCycles (s t : State) : (reportCycles s t).remainingCycles = t.remainingCycles := rfl
@[simp] theorem reportCycles_inFlight (s t : State) : (reportCycles s t).inFlight = t.inFlight := rfl
@[simp] theorem reportCycles_operandRef (s t : State) : (reportCycles s t).operandRef = t.operandRef := rfl
@[simp] theorem reportCycles_branchOffset (s t : State) : (reportCycles s t).branchOffset = t.branchOffset := rfl
@[simp] theorem reportCycles_pageCrossed (s t : State) : (reportCycles s t).pageCrossed = t.pageCrossed := rfl
@[simp] theorem reportCycles_cyclesElapsed (s t : State) : (reportCycles s t).cyclesElapsed = t.cyclesElapsed := rfl
@[simp] theorem reportCycles_bus (s t : State) : (reportCycles s t).bus = t.bus := rfl
@[simp] theorem reportCycles_mem (s t : State) : (reportCycles s t).mem = t.mem := rfl
@[simp] theorem reportCycles_cfg (s t : State) : (reportCycles s t).cfg = t.cfg := rfl
@[simp] theorem reportCycles_busTime (s t : State) : (reportCycles s t).busTime = t.busTime := rfl
@[simp] theorem reportCycles_busLog (s t : State) : (reportCycles s t).busLog = t.busLog := rfl
@[simp] theorem reportCycles_hostCalls (s t : State) : (reportCycles s t).hostCalls = t.hostCalls := rfl
@[simp] theorem reportCycles_reply (s t : State) : (reportCycles s t).reply = some (.cycles (t.cyclesElapsed - s.cyclesElapsed)) := rfl

end Sys2Proof.Machine
end

