-- ==== Sys2Proof/Laws/Ops.lean ====
section
/-! SUPPORT. What each shared operation can do, field by field, and its value: the lemmas that later proofs cite instead of
unfolding the operation. -/

namespace Sys2Proof.Machine

/-! ## The bus -/

@[simp] theorem busRead_fst (s : State) (a : Addr) : (busRead s a).1 = busPeek s a := rfl

@[simp] theorem busRead_pc (s : State) (a : Addr) : ((busRead s a).2).pc = s.pc := rfl
@[simp] theorem busRead_sp (s : State) (a : Addr) : ((busRead s a).2).sp = s.sp := rfl
@[simp] theorem busRead_a (s : State) (a : Addr) : ((busRead s a).2).a = s.a := rfl
@[simp] theorem busRead_x (s : State) (a : Addr) : ((busRead s a).2).x = s.x := rfl
@[simp] theorem busRead_y (s : State) (a : Addr) : ((busRead s a).2).y = s.y := rfl
@[simp] theorem busRead_p (s : State) (a : Addr) : ((busRead s a).2).p = s.p := rfl
@[simp] theorem busRead_opcode (s : State) (a : Addr) : ((busRead s a).2).opcode = s.opcode := rfl
@[simp] theorem busRead_desc (s : State) (a : Addr) : ((busRead s a).2).desc = s.desc := rfl
@[simp] theorem busRead_remainingCycles (s : State) (a : Addr) : ((busRead s a).2).remainingCycles = s.remainingCycles := rfl
@[simp] theorem busRead_inFlight (s : State) (a : Addr) : ((busRead s a).2).inFlight = s.inFlight := rfl
@[simp] theorem busRead_operandRef (s : State) (a : Addr) : ((busRead s a).2).operandRef = s.operandRef := rfl
@[simp] theorem busRead_branchOffset (s : State) (a : Addr) : ((busRead s a).2).branchOffset = s.branchOffset := rfl
@[simp] theorem busRead_pageCrossed (s : State) (a : Addr) : ((busRead s a).2).pageCrossed = s.pageCrossed := rfl
@[simp] theorem busRead_cyclesElapsed (s : State) (a : Addr) : ((busRead s a).2).cyclesElapsed = s.cyclesElapsed := rfl
@[simp] theorem busRead_bus (s : State) (a : Addr) : ((busRead s a).2).bus = s.bus := rfl
@[simp] theorem busRead_mem (s : State) (a : Addr) : ((busRead s a).2).mem = s.mem := rfl
@[simp] theorem busRead_cfg (s : State) (a : Addr) : ((busRead s a).2).cfg = s.cfg := rfl
@[simp] theorem busRead_busTime (s : State) (a : Addr) : ((busRead s a).2).busTime = s.busTime + 1 := rfl
@[simp] theorem busRead_busLog (s : State) (a : Addr) : ((busRead s a).2).busLog = s.busLog ++ [.read a (busPeek s a)] := rfl
@[simp] theorem busRead_hostCalls (s : State) (a : Addr) : ((busRead s a).2).hostCalls = s.hostCalls := rfl
@[simp] theorem busRead_reply (s : State) (a : Addr) : ((busRead s a).2).reply = s.reply := rfl

@[simp] theorem busWrite_pc (s : State) (a : Addr) (v : Byte) : (busWrite s a v).pc = s.pc := rfl
@[simp] theorem busWrite_sp (s : State) (a : Addr) (v : Byte) : (busWrite s a v).sp = s.sp := rfl
@[simp] theorem busWrite_a (s : State) (a : Addr) (v : Byte) : (busWrite s a v).a = s.a := rfl
@[simp] theorem busWrite_x (s : State) (a : Addr) (v : Byte) : (busWrite s a v).x = s.x := rfl
@[simp] theorem busWrite_y (s : State) (a : Addr) (v : Byte) : (busWrite s a v).y = s.y := rfl
@[simp] theorem busWrite_p (s : State) (a : Addr) (v : Byte) : (busWrite s a v).p = s.p := rfl
@[simp] theorem busWrite_opcode (s : State) (a : Addr) (v : Byte) : (busWrite s a v).opcode = s.opcode := rfl
@[simp] theorem busWrite_desc (s : State) (a : Addr) (v : Byte) : (busWrite s a v).desc = s.desc := rfl
@[simp] theorem busWrite_remainingCycles (s : State) (a : Addr) (v : Byte) : (busWrite s a v).remainingCycles = s.remainingCycles := rfl
@[simp] theorem busWrite_inFlight (s : State) (a : Addr) (v : Byte) : (busWrite s a v).inFlight = s.inFlight := rfl
@[simp] theorem busWrite_operandRef (s : State) (a : Addr) (v : Byte) : (busWrite s a v).operandRef = s.operandRef := rfl
@[simp] theorem busWrite_branchOffset (s : State) (a : Addr) (v : Byte) : (busWrite s a v).branchOffset = s.branchOffset := rfl
@[simp] theorem busWrite_pageCrossed (s : State) (a : Addr) (v : Byte) : (busWrite s a v).pageCrossed = s.pageCrossed := rfl
@[simp] theorem busWrite_cyclesElapsed (s : State) (a : Addr) (v : Byte) : (busWrite s a v).cyclesElapsed = s.cyclesElapsed := rfl
@[simp] theorem busWrite_bus (s : State) (a : Addr) (v : Byte) : (busWrite s a v).bus = s.bus := rfl
@[simp] theorem busWrite_mem (s : State) (a : Addr) (v : Byte) : (busWrite s a v).mem = memPut s.bus s.mem a v := rfl
@[simp] theorem busWrite_cfg (s : State) (a : Addr) (v : Byte) : (busWrite s a v).cfg = s.cfg := rfl
@[simp] theorem busWrite_busTime (s : State) (a : Addr) (v : Byte) : (busWrite s a v).busTime = s.busTime + 1 := rfl
@[simp] theorem busWrite_busLog (s : State) (a : Addr) (v : Byte) : (busWrite s a v).busLog = s.busLog ++ [.write a v] := rfl
@[simp] theorem busWrite_hostCalls (s : State) (a : Addr) (v : Byte) : (busWrite s a v).hostCalls = s.hostCalls := rfl
@[simp] theorem busWrite_reply (s : State) (a : Addr) (v : Byte) : (busWrite s a v).reply = s.reply := rfl

/-- What a bus read returns depends on the bus, its RAM and the number of the transaction alone. -/
theorem busPeek_congr {s t : State} (a : Addr) (hb : t.bus = s.bus) (hm : t.mem = s.mem) (ht : t.busTime = s.busTime) :
    busPeek t a = busPeek s a := by
  simp [busPeek, hb, hm, ht]

/-- On `FlatRAM64K` a bus read returns the RAM byte (R55). -/
theorem busPeek_flat {s : State} (h : s.bus = some .flatRam) (a : Addr) : busPeek s a = memRead s.mem a.toNat := by
  simp [busPeek, backing, h]

@[simp] theorem busReadWord_pc (s : State) (l h : Addr) : ((busReadWord s l h).2).pc = s.pc := by simp [busReadWord]
@[simp] theorem busReadWord_sp (s : State) (l h : Addr) : ((busReadWord s l h).2).sp = s.sp := by simp [busReadWord]
@[simp] theorem busReadWord_a (s : State) (l h : Addr) : ((busReadWord s l h).2).a = s.a := by simp [busReadWord]
@[simp] theorem busReadWord_x (s : State) (l h : Addr) : ((busReadWord s l h).2).x = s.x := by simp [busReadWord]
@[simp] theorem busReadWord_y (s : State) (l h : Addr) : ((busReadWord s l h).2).y = s.y := by simp [busReadWord]
@[simp] theorem busReadWord_p (s : State) (l h : Addr) : ((busReadWord s l h).2).p = s.p := by simp [busReadWord]
@[simp] theorem busReadWord_opcode (s : State) (l h : Addr) : ((busReadWord s l h).2).opcode = s.opcode := by simp [busReadWord]
@[simp] theorem busReadWord_desc (s : State) (l h : Addr) : ((busReadWord s l h).2).desc = s.desc := by simp [busReadWord]
@[simp] theorem busReadWord_remainingCycles (s : State) (l h : Addr) : ((busReadWord s l h).2).remainingCycles = s.remainingCycles := by simp [busReadWord]
@[simp] theorem busReadWord_inFlight (s : State) (l h : Addr) : ((busReadWord s l h).2).inFlight = s.inFlight := by simp [busReadWord]
@[simp] theorem busReadWord_operandRef (s : State) (l h : Addr) : ((busReadWord s l h).2).operandRef = s.operandRef := by simp [busReadWord]
@[simp] theorem busReadWord_branchOffset (s : State) (l h : Addr) : ((busReadWord s l h).2).branchOffset = s.branchOffset := by simp [busReadWord]
@[simp] theorem busReadWord_pageCrossed (s : State) (l h : Addr) : ((busReadWord s l h).2).pageCrossed = s.pageCrossed := by simp [busReadWord]
@[simp] theorem busReadWord_cyclesElapsed (s : State) (l h : Addr) : ((busReadWord s l h).2).cyclesElapsed = s.cyclesElapsed := by simp [busReadWord]
@[simp] theorem busReadWord_bus (s : State) (l h : Addr) : ((busReadWord s l h).2).bus = s.bus := by simp [busReadWord]
@[simp] theorem busReadWord_mem (s : State) (l h : Addr) : ((busReadWord s l h).2).mem = s.mem := by simp [busReadWord]
@[simp] theorem busReadWord_cfg (s : State) (l h : Addr) : ((busReadWord s l h).2).cfg = s.cfg := by simp [busReadWord]
@[simp] theorem busReadWord_busTime (s : State) (l h : Addr) : ((busReadWord s l h).2).busTime = s.busTime + 2 := by simp [busReadWord]
@[simp] theorem busReadWord_busLog (s : State) (l h : Addr) : ((busReadWord s l h).2).busLog = s.busLog ++ [.read l (busPeek s l), .read h (busPeek (busRead s l).2 h)] := by simp [busReadWord]
@[simp] theorem busReadWord_hostCalls (s : State) (l h : Addr) : ((busReadWord s l h).2).hostCalls = s.hostCalls := by simp [busReadWord]
@[simp] theorem busReadWord_reply (s : State) (l h : Addr) : ((busReadWord s l h).2).reply = s.reply := by simp [busReadWord]

@[simp] theorem busReadWord_fst (s : State) (l h : Addr) :
    (busReadWord s l h).1 = w16 (busPeek (busRead s l).2 h) (busPeek s l) := rfl

/-! ## The stack -/

@[simp] theorem push_pc (v : Byte) (s : State) : (push v s).pc = s.pc := rfl
@[simp] theorem push_sp (v : Byte) (s : State) : (push v s).sp = s.sp - 1 := rfl
@[simp] theorem push_a (v : Byte) (s : State) : (push v s).a = s.a := rfl
@[simp] theorem push_x (v : Byte) (s : State) : (push v s).x = s.x := rfl
@[simp] theorem push_y (v : Byte) (s : State) : (push v s).y = s.y := rfl
@[simp] theorem push_p (v : Byte) (s : State) : (push v s).p = s.p := rfl
@[simp] theorem push_opcode (v : Byte) (s : State) : (push v s).opcode = s.opcode := rfl
@[simp] theorem push_desc (v : Byte) (s : State) : (push v s).desc = s.desc := rfl
@[simp] theorem push_remainingCycles (v : Byte) (s : State) : (push v s).remainingCycles = s.remainingCycles := rfl
@[simp] theorem push_inFlight (v : Byte) (s : State) : (push v s).inFlight = s.inFlight := rfl
@[simp] theorem push_operandRef (v : Byte) (s : State) : (push v s).operandRef = s.operandRef := rfl
@[simp] theorem push_branchOffset (v : Byte) (s : State) : (push v s).branchOffset = s.branchOffset := rfl
@[simp] theorem push_pageCrossed (v : Byte) (s : State) : (push v s).pageCrossed = s.pageCrossed := rfl
@[simp] theorem push_cyclesElapsed (v : Byte) (s : State) : (push v s).cyclesElapsed = s.cyclesElapsed := rfl
@[simp] theorem push_bus (v : Byte) (s : State) : (push v s).bus = s.bus := rfl
@[simp] theorem push_mem (v : Byte) (s : State) : (push v s).mem = memPut s.bus s.mem (stackAddr s.sp) v := rfl
@[simp] theorem push_cfg (v : Byte) (s : State) : (push v s).cfg = s.cfg := rfl
@[simp] theorem push_busTime (v : Byte) (s : State) : (push v s).busTime = s.busTime + 1 := rfl
@[simp] theorem push_busLog (v : Byte) (s : State) : (push v s).busLog = s.busLog ++ [.write (stackAddr s.sp) v] := rfl
@[simp] theorem push_hostCalls (v : Byte) (s : State) : (push v s).hostCalls = s.hostCalls := rfl
@[simp] theorem push_reply (v : Byte) (s : State) : (push v s).reply = s.reply := rfl

@[simp] theorem pop_fst (s : State) : (pop s).1 = busPeek s (stackAddr (s.sp + 1)) := rfl

@[simp] theorem pop_pc (s : State) : ((pop s).2).pc = s.pc := rfl
@[simp] theorem pop_sp (s : State) : ((pop s).2).sp = s.sp + 1 := rfl
@[simp] theorem pop_a (s : State) : ((pop s).2).a = s.a := rfl
@[simp] theorem pop_x (s : State) : ((pop s).2).x = s.x := rfl
@[simp] theorem pop_y (s : State) : ((pop s).2).y = s.y := rfl
@[simp] theorem pop_p (s : State) : ((pop s).2).p = s.p := rfl
@[simp] theorem pop_opcode (s : State) : ((pop s).2).opcode = s.opcode := rfl
@[simp] theorem pop_desc (s : State) : ((pop s).2).desc = s.desc := rfl
@[simp] theorem pop_remainingCycles (s : State) : ((pop s).2).remainingCycles = s.remainingCycles := rfl
@[simp] theorem pop_inFlight (s : State) : ((pop s).2).inFlight = s.inFlight := rfl
@[simp] theorem pop_operandRef (s : State) : ((pop s).2).operandRef = s.operandRef := rfl
@[simp] theorem pop_branchOffset (s : State) : ((pop s).2).branchOffset = s.branchOffset := rfl
@[simp] theorem pop_pageCrossed (s : State) : ((pop s).2).pageCrossed = s.pageCrossed := rfl
@[simp] theorem pop_cyclesElapsed (s : State) : ((pop s).2).cyclesElapsed = s.cyclesElapsed := rfl
@[simp] theorem pop_bus (s : State) : ((pop s).2).bus = s.bus := rfl
@[simp] theorem pop_mem (s : State) : ((pop s).2).mem = s.mem := rfl
@[simp] theorem pop_cfg (s : State) : ((pop s).2).cfg = s.cfg := rfl
@[simp] theorem pop_busTime (s : State) : ((pop s).2).busTime = s.busTime + 1 := rfl
@[simp] theorem pop_busLog (s : State) : ((pop s).2).busLog = s.busLog ++ [.read (stackAddr (s.sp + 1)) (busPeek s (stackAddr (s.sp + 1)))] := rfl
@[simp] theorem pop_hostCalls (s : State) : ((pop s).2).hostCalls = s.hostCalls := rfl
@[simp] theorem pop_reply (s : State) : ((pop s).2).reply = s.reply := rfl

@[simp] theorem pushWord_pc (w : Addr) (s : State) : (pushWord w s).pc = s.pc := by simp [pushWord]
@[simp] theorem pushWord_sp (w : Addr) (s : State) : (pushWord w s).sp = s.sp - 1 - 1 := by simp [pushWord]
@[simp] theorem pushWord_a (w : Addr) (s : State) : (pushWord w s).a = s.a := by simp [pushWord]
@[simp] theorem pushWord_x (w : Addr) (s : State) : (pushWord w s).x = s.x := by simp [pushWord]
@[simp] theorem pushWord_y (w : Addr) (s : State) : (pushWord w s).y = s.y := by simp [pushWord]
@[simp] theorem pushWord_p (w : Addr) (s : State) : (pushWord w s).p = s.p := by simp [pushWord]
@[simp] theorem pushWord_opcode (w : Addr) (s : State) : (pushWord w s).opcode = s.opcode := by simp [pushWord]
@[simp] theorem pushWord_desc (w : Addr) (s : State) : (pushWord w s).desc = s.desc := by simp [pushWord]
@[simp] theorem pushWord_remainingCycles (w : Addr) (s : State) : (pushWord w s).remainingCycles = s.remainingCycles := by simp [pushWord]
@[simp] theorem pushWord_inFlight (w : Addr) (s : State) : (pushWord w s).inFlight = s.inFlight := by simp [pushWord]
@[simp] theorem pushWord_operandRef (w : Addr) (s : State) : (pushWord w s).operandRef = s.operandRef := by simp [pushWord]
@[simp] theorem pushWord_branchOffset (w : Addr) (s : State) : (pushWord w s).branchOffset = s.branchOffset := by simp [pushWord]
@[simp] theorem pushWord_pageCrossed (w : Addr) (s : State) : (pushWord w s).pageCrossed = s.pageCrossed := by simp [pushWord]
@[simp] theorem pushWord_cyclesElapsed (w : Addr) (s : State) : (pushWord w s).cyclesElapsed = s.cyclesElapsed := by simp [pushWord]
@[simp] theorem pushWord_bus (w : Addr) (s : State) : (pushWord w s).bus = s.bus := by simp [pushWord]
@[simp] theorem pushWord_mem (w : Addr) (s : State) : (pushWord w s).mem = memPut s.bus (memPut s.bus s.mem (stackAddr s.sp) (hi w)) (stackAddr (s.sp - 1)) (lo w) := by simp [pushWord]
@[simp] theorem pushWord_cfg (w : Addr) (s : State) : (pushWord w s).cfg = s.cfg := by simp [pushWord]
@[simp] theorem pushWord_busTime (w : Addr) (s : State) : (pushWord w s).busTime = s.busTime + 2 := by simp [pushWord]
@[simp] theorem pushWord_busLog (w : Addr) (s : State) : (pushWord w s).busLog = s.busLog ++ [.write (stackAddr s.sp) (hi w), .write (stackAddr (s.sp - 1)) (lo w)] := by simp [pushWord]
@[simp] theorem pushWord_hostCalls (w : Addr) (s : State) : (pushWord w s).hostCalls = s.hostCalls := by simp [pushWord]
@[simp] theorem pushWord_reply (w : Addr) (s : State) : (pushWord w s).reply = s.reply := by simp [pushWord]

@[simp] theorem popWord_fst (s : State) :
    (popWord s).1 = w16 (busPeek (pop s).2 (stackAddr (s.sp + 1 + 1))) (busPeek s (stackAddr (s.sp + 1))) := rfl

@[simp] theorem popWord_pc (s : State) : ((popWord s).2).pc = s.pc := by simp [popWord]
@[simp] theorem popWord_sp (s : State) : ((popWord s).2).sp = s.sp + 1 + 1 := by simp [popWord]
@[simp] theorem popWord_a (s : State) : ((popWord s).2).a = s.a := by simp [popWord]
@[simp] theorem popWord_x (s : State) : ((popWord s).2).x = s.x := by simp [popWord]
@[simp] theorem popWord_y (s : State) : ((popWord s).2).y = s.y := by simp [popWord]
@[simp] theorem popWord_p (s : State) : ((popWord s).2).p = s.p := by simp [popWord]
@[simp] theorem popWord_opcode (s : State) : ((popWord s).2).opcode = s.opcode := by simp [popWord]
@[simp] theorem popWord_desc (s : State) : ((popWord s).2).desc = s.desc := by simp [popWord]
@[simp] theorem popWord_remainingCycles (s : State) : ((popWord s).2).remainingCycles = s.remainingCycles := by simp [popWord]
@[simp] theorem popWord_inFlight (s : State) : ((popWord s).2).inFlight = s.inFlight := by simp [popWord]
@[simp] theorem popWord_operandRef (s : State) : ((popWord s).2).operandRef = s.operandRef := by simp [popWord]
@[simp] theorem popWord_branchOffset (s : State) : ((popWord s).2).branchOffset = s.branchOffset := by simp [popWord]
@[simp] theorem popWord_pageCrossed (s : State) : ((popWord s).2).pageCrossed = s.pageCrossed := by simp [popWord]
@[simp] theorem popWord_cyclesElapsed (s : State) : ((popWord s).2).cyclesElapsed = s.cyclesElapsed := by simp [popWord]
@[simp] theorem popWord_bus (s : State) : ((popWord s).2).bus = s.bus := by simp [popWord]
@[simp] theorem popWord_mem (s : State) : ((popWord s).2).mem = s.mem := by simp [popWord]
@[simp] theorem popWord_cfg (s : State) : ((popWord s).2).cfg = s.cfg := by simp [popWord]
@[simp] theorem popWord_busTime (s : State) : ((popWord s).2).busTime = s.busTime + 2 := by simp [popWord]
@[simp] theorem popWord_hostCalls (s : State) : ((popWord s).2).hostCalls = s.hostCalls := by simp [popWord]
@[simp] theorem popWord_reply (s : State) : ((popWord s).2).reply = s.reply := by simp [popWord]

/-! ## The OperandRef -/

@[simp] theorem load_pc (s : State) : ((load s).2).pc = s.pc := by unfold load; split <;> rfl
@[simp] theorem load_sp (s : State) : ((load s).2).sp = s.sp := by unfold load; split <;> rfl
@[simp] theorem load_a (s : State) : ((load s).2).a = s.a := by unfold load; split <;> rfl
@[simp] theorem load_x (s : State) : ((load s).2).x = s.x := by unfold load; split <;> rfl
@[simp] theorem load_y (s : State) : ((load s).2).y = s.y := by unfold load; split <;> rfl
@[simp] theorem load_p (s : State) : ((load s).2).p = s.p := by unfold load; split <;> rfl
@[simp] theorem load_opcode (s : State) : ((load s).2).opcode = s.opcode := by unfold load; split <;> rfl
@[simp] theorem load_desc (s : State) : ((load s).2).desc = s.desc := by unfold load; split <;> rfl
@[simp] theorem load_remainingCycles (s : State) : ((load s).2).remainingCycles = s.remainingCycles := by unfold load; split <;> rfl
@[simp] theorem load_inFlight (s : State) : ((load s).2).inFlight = s.inFlight := by unfold load; split <;> rfl
@[simp] theorem load_operandRef (s : State) : ((load s).2).operandRef = s.operandRef := by unfold load; split <;> rfl
@[simp] theorem load_branchOffset (s : State) : ((load s).2).branchOffset = s.branchOffset := by unfold load; split <;> rfl
@[simp] theorem load_pageCrossed (s : State) : ((load s).2).pageCrossed = s.pageCrossed := by unfold load; split <;> rfl
@[simp] theorem load_cyclesElapsed (s : State) : ((load s).2).cyclesElapsed = s.cyclesElapsed := by unfold load; split <;> rfl
@[simp] theorem load_bus (s : State) : ((load s).2).bus = s.bus := by unfold load; split <;> rfl
@[simp] theorem load_mem (s : State) : ((load s).2).mem = s.mem := by unfold load; split <;> rfl
@[simp] theorem load_cfg (s : State) : ((load s).2).cfg = s.cfg := by unfold load; split <;> rfl
@[simp] theorem load_hostCalls (s : State) : ((load s).2).hostCalls = s.hostCalls := by unfold load; split <;> rfl
@[simp] theorem load_reply (s : State) : ((load s).2).reply = s.reply := by unfold load; split <;> rfl

@[simp] theorem store_pc (v : Byte) (s : State) : (store v s).pc = s.pc := by unfold store; split <;> rfl
@[simp] theorem store_sp (v : Byte) (s : State) : (store v s).sp = s.sp := by unfold store; split <;> rfl
@[simp] theorem store_x (v : Byte) (s : State) : (store v s).x = s.x := by unfold store; split <;> rfl
@[simp] theorem store_y (v : Byte) (s : State) : (store v s).y = s.y := by unfold store; split <;> rfl
@[simp] theorem store_p (v : Byte) (s : State) : (store v s).p = s.p := by unfold store; split <;> rfl
@[simp] theorem store_opcode (v : Byte) (s : State) : (store v s).opcode = s.opcode := by unfold store; split <;> rfl
@[simp] theorem store_desc (v : Byte) (s : State) : (store v s).desc = s.desc := by unfold store; split <;> rfl
@[simp] theorem store_remainingCycles (v : Byte) (s : State) : (store v s).remainingCycles = s.remainingCycles := by unfold store; split <;> rfl
@[simp] theorem store_inFlight (v : Byte) (s : State) : (store v s).inFlight = s.inFlight := by unfold store; split <;> rfl
@[simp] theorem store_operandRef (v : Byte) (s : State) : (store v s).operandRef = s.operandRef := by unfold store; split <;> rfl
@[simp] theorem store_branchOffset (v : Byte) (s : State) : (store v s).branchOffset = s.branchOffset := by unfold store; split <;> rfl
@[simp] theorem store_pageCrossed (v : Byte) (s : State) : (store v s).pageCrossed = s.pageCrossed := by unfold store; split <;> rfl
@[simp] theorem store_cyclesElapsed (v : Byte) (s : State) : (store v s).cyclesElapsed = s.cyclesElapsed := by unfold store; split <;> rfl
@[simp] theorem store_bus (v : Byte) (s : State) : (store v s).bus = s.bus := by unfold store; split <;> rfl
@[simp] theorem store_cfg (v : Byte) (s : State) : (store v s).cfg = s.cfg := by unfold store; split <;> rfl
@[simp] theorem store_hostCalls (v : Byte) (s : State) : (store v s).hostCalls = s.hostCalls := by unfold store; split <;> rfl
@[simp] theorem store_reply (v : Byte) (s : State) : (store v s).reply = s.reply := by unfold store; split <;> rfl

theorem load_of_mem {s : State} {a : Addr} (h : s.operandRef = .mem a) : load s = busRead s a := by
  simp [load, h]

theorem load_of_regA {s : State} (h : s.operandRef = .regA) : load s = (s.a, s) := by
  simp [load, h]

theorem store_of_mem {s : State} {a : Addr} (h : s.operandRef = .mem a) (v : Byte) : store v s = busWrite s a v := by
  simp [store, h]

theorem store_of_regA {s : State} (h : s.operandRef = .regA) (v : Byte) : store v s = { s with a := v } := by
  simp [store, h]

/-! ## The resolver -/

@[simp] theorem resolve_pc (o : Operand) (s : State) : (resolve o s).pc = s.pc := by cases o <;> simp [resolve]
@[simp] theorem resolve_sp (o : Operand) (s : State) : (resolve o s).sp = s.sp := by cases o <;> simp [resolve]
@[simp] theorem resolve_a (o : Operand) (s : State) : (resolve o s).a = s.a := by cases o <;> simp [resolve]
@[simp] theorem resolve_x (o : Operand) (s : State) : (resolve o s).x = s.x := by cases o <;> simp [resolve]
@[simp] theorem resolve_y (o : Operand) (s : State) : (resolve o s).y = s.y := by cases o <;> simp [resolve]
@[simp] theorem resolve_p (o : Operand) (s : State) : (resolve o s).p = s.p := by cases o <;> simp [resolve]
@[simp] theorem resolve_opcode (o : Operand) (s : State) : (resolve o s).opcode = s.opcode := by cases o <;> simp [resolve]
@[simp] theorem resolve_desc (o : Operand) (s : State) : (resolve o s).desc = s.desc := by cases o <;> simp [resolve]
@[simp] theorem resolve_remainingCycles (o : Operand) (s : State) : (resolve o s).remainingCycles = s.remainingCycles := by cases o <;> simp [resolve]
@[simp] theorem resolve_inFlight (o : Operand) (s : State) : (resolve o s).inFlight = s.inFlight := by cases o <;> simp [resolve]
@[simp] theorem resolve_cyclesElapsed (o : Operand) (s : State) : (resolve o s).cyclesElapsed = s.cyclesElapsed := by cases o <;> simp [resolve]
@[simp] theorem resolve_bus (o : Operand) (s : State) : (resolve o s).bus = s.bus := by cases o <;> simp [resolve]
@[simp] theorem resolve_mem (o : Operand) (s : State) : (resolve o s).mem = s.mem := by cases o <;> simp [resolve]
@[simp] theorem resolve_cfg (o : Operand) (s : State) : (resolve o s).cfg = s.cfg := by cases o <;> simp [resolve]
@[simp] theorem resolve_hostCalls (o : Operand) (s : State) : (resolve o s).hostCalls = s.hostCalls := by cases o <;> simp [resolve]
@[simp] theorem resolve_reply (o : Operand) (s : State) : (resolve o s).reply = s.reply := by cases o <;> simp [resolve]

/-! ## Fetching -/

@[simp] theorem fetchByte_fst (s : State) : (fetchByte s).1 = busPeek s s.pc := rfl

@[simp] theorem fetchByte_pc (s : State) : ((fetchByte s).2).pc = s.pc + 1 := rfl
@[simp] theorem fetchByte_sp (s : State) : ((fetchByte s).2).sp = s.sp := rfl
@[simp] theorem fetchByte_a (s : State) : ((fetchByte s).2).a = s.a := rfl
@[simp] theorem fetchByte_x (s : State) : ((fetchByte s).2).x = s.x := rfl
@[simp] theorem fetchByte_y (s : State) : ((fetchByte s).2).y = s.y := rfl
@[simp] theorem fetchByte_p (s : State) : ((fetchByte s).2).p = s.p := rfl
@[simp] theorem fetchByte_opcode (s : State) : ((fetchByte s).2).opcode = s.opcode := rfl
@[simp] theorem fetchByte_desc (s : State) : ((fetchByte s).2).desc = s.desc := rfl
@[simp] theorem fetchByte_remainingCycles (s : State) : ((fetchByte s).2).remainingCycles = s.remainingCycles := rfl
@[simp] theorem fetchByte_inFlight (s : State) : ((fetchByte s).2).inFlight = s.inFlight := rfl
@[simp] theorem fetchByte_operandRef (s : State) : ((fetchByte s).2).operandRef = s.operandRef := rfl
@[simp] theorem fetchByte_branchOffset (s : State) : ((fetchByte s).2).branchOffset = s.branchOffset := rfl
@[simp] theorem fetchByte_pageCrossed (s : State) : ((fetchByte s).2).pageCrossed = s.pageCrossed := rfl
@[simp] theorem fetchByte_cyclesElapsed (s : State) : ((fetchByte s).2).cyclesElapsed = s.cyclesElapsed := rfl
@[simp] theorem fetchByte_bus (s : State) : ((fetchByte s).2).bus = s.bus := rfl
@[simp] theorem fetchByte_mem (s : State) : ((fetchByte s).2).mem = s.mem := rfl
@[simp] theorem fetchByte_cfg (s : State) : ((fetchByte s).2).cfg = s.cfg := rfl
@[simp] theorem fetchByte_busTime (s : State) : ((fetchByte s).2).busTime = s.busTime + 1 := rfl
@[simp] theorem fetchByte_busLog (s : State) : ((fetchByte s).2).busLog = s.busLog ++ [.read s.pc (busPeek s s.pc)] := rfl
@[simp] theorem fetchByte_hostCalls (s : State) : ((fetchByte s).2).hostCalls = s.hostCalls := rfl
@[simp] theorem fetchByte_reply (s : State) : ((fetchByte s).2).reply = s.reply := rfl

@[simp] theorem fetchWord_fst (s : State) :
    (fetchWord s).1 = w16 (busPeek (fetchByte s).2 (s.pc + 1)) (busPeek s s.pc) := rfl

@[simp] theorem fetchWord_pc (s : State) : ((fetchWord s).2).pc = s.pc + 1 + 1 := by simp [fetchWord]
@[simp] theorem fetchWord_sp (s : State) : ((fetchWord s).2).sp = s.sp := by simp [fetchWord]
@[simp] theorem fetchWord_a (s : State) : ((fetchWord s).2).a = s.a := by simp [fetchWord]
@[simp] theorem fetchWord_x (s : State) : ((fetchWord s).2).x = s.x := by simp [fetchWord]
@[simp] theorem fetchWord_y (s : State) : ((fetchWord s).2).y = s.y := by simp [fetchWord]
@[simp] theorem fetchWord_p (s : State) : ((fetchWord s).2).p = s.p := by simp [fetchWord]
@[simp] theorem fetchWord_opcode (s : State) : ((fetchWord s).2).opcode = s.opcode := by simp [fetchWord]
@[simp] theorem fetchWord_desc (s : State) : ((fetchWord s).2).desc = s.desc := by simp [fetchWord]
@[simp] theorem fetchWord_remainingCycles (s : State) : ((fetchWord s).2).remainingCycles = s.remainingCycles := by simp [fetchWord]
@[simp] theorem fetchWord_inFlight (s : State) : ((fetchWord s).2).inFlight = s.inFlight := by simp [fetchWord]
@[simp] theorem fetchWord_operandRef (s : State) : ((fetchWord s).2).operandRef = s.operandRef := by simp [fetchWord]
@[simp] theorem fetchWord_branchOffset (s : State) : ((fetchWord s).2).branchOffset = s.branchOffset := by simp [fetchWord]
@[simp] theorem fetchWord_pageCrossed (s : State) : ((fetchWord s).2).pageCrossed = s.pageCrossed := by simp [fetchWord]
@[simp] theorem fetchWord_cyclesElapsed (s : State) : ((fetchWord s).2).cyclesElapsed = s.cyclesElapsed := by simp [fetchWord]
@[simp] theorem fetchWord_bus (s : State) : ((fetchWord s).2).bus = s.bus := by simp [fetchWord]
@[simp] theorem fetchWord_mem (s : State) : ((fetchWord s).2).mem = s.mem := by simp [fetchWord]
@[simp] theorem fetchWord_cfg (s : State) : ((fetchWord s).2).cfg = s.cfg := by simp [fetchWord]
@[simp] theorem fetchWord_busTime (s : State) : ((fetchWord s).2).busTime = s.busTime + 2 := by simp [fetchWord]
@[simp] theorem fetchWord_busLog (s : State) : ((fetchWord s).2).busLog = s.busLog ++ [.read s.pc (busPeek s s.pc), .read (s.pc + 1) (busPeek (fetchByte s).2 (s.pc + 1))] := by simp [fetchWord]
@[simp] theorem fetchWord_hostCalls (s : State) : ((fetchWord s).2).hostCalls = s.hostCalls := by simp [fetchWord]
@[simp] theorem fetchWord_reply (s : State) : ((fetchWord s).2).reply = s.reply := by simp [fetchWord]

@[simp] theorem fetchOperand_sp (m : Mode) (s : State) : ((fetchOperand m s).2).sp = s.sp := by cases m <;> simp [fetchOperand]
@[simp] theorem fetchOperand_a (m : Mode) (s : State) : ((fetchOperand m s).2).a = s.a := by cases m <;> simp [fetchOperand]
@[simp] theorem fetchOperand_x (m : Mode) (s : State) : ((fetchOperand m s).2).x = s.x := by cases m <;> simp [fetchOperand]
@[simp] theorem fetchOperand_y (m : Mode) (s : State) : ((fetchOperand m s).2).y = s.y := by cases m <;> simp [fetchOperand]
@[simp] theorem fetchOperand_p (m : Mode) (s : State) : ((fetchOperand m s).2).p = s.p := by cases m <;> simp [fetchOperand]
@[simp] theorem fetchOperand_opcode (m : Mode) (s : State) : ((fetchOperand m s).2).opcode = s.opcode := by cases m <;> simp [fetchOperand]
@[simp] theorem fetchOperand_desc (m : Mode) (s : State) : ((fetchOperand m s).2).desc = s.desc := by cases m <;> simp [fetchOperand]
@[simp] theorem fetchOperand_remainingCycles (m : Mode) (s : State) : ((fetchOperand m s).2).remainingCycles = s.remainingCycles := by cases m <;> simp [fetchOperand]
@[simp] theorem fetchOperand_inFlight (m : Mode) (s : State) : ((fetchOperand m s).2).inFlight = s.inFlight := by cases m <;> simp [fetchOperand]
@[simp] theorem fetchOperand_operandRef (m : Mode) (s : State) : ((fetchOperand m s).2).operandRef = s.operandRef := by cases m <;> simp [fetchOperand]
@[simp] theorem fetchOperand_branchOffset (m : Mode) (s : State) : ((fetchOperand m s).2).branchOffset = s.branchOffset := by cases m <;> simp [fetchOperand]
@[simp] theorem fetchOperand_pageCrossed (m : Mode) (s : State) : ((fetchOperand m s).2).pageCrossed = s.pageCrossed := by cases m <;> simp [fetchOperand]
@[simp] theorem fetchOperand_cyclesElapsed (m : Mode) (s : State) : ((fetchOperand m s).2).cyclesElapsed = s.cyclesElapsed := by cases m <;> simp [fetchOperand]
@[simp] theorem fetchOperand_bus (m : Mode) (s : State) : ((fetchOperand m s).2).bus = s.bus := by cases m <;> simp [fetchOperand]
@[simp] theorem fetchOperand_mem (m : Mode) (s : State) : ((fetchOperand m s).2).mem = s.mem := by cases m <;> simp [fetchOperand]
@[simp] theorem fetchOperand_cfg (m : Mode) (s : State) : ((fetchOperand m s).2).cfg = s.cfg := by cases m <;> simp [fetchOperand]
@[simp] theorem fetchOperand_hostCalls (m : Mode) (s : State) : ((fetchOperand m s).2).hostCalls = s.hostCalls := by cases m <;> simp [fetchOperand]
@[simp] theorem fetchOperand_reply (m : Mode) (s : State) : ((fetchOperand m s).2).reply = s.reply := by cases m <;> simp [fetchOperand]

@[simp] theorem fetch_sp (s : State) : ((fetch s).2).sp = s.sp := by simp [fetch]
@[simp] theorem fetch_a (s : State) : ((fetch s).2).a = s.a := by simp [fetch]
@[simp] theorem fetch_x (s : State) : ((fetch s).2).x = s.x := by simp [fetch]
@[simp] theorem fetch_y (s : State) : ((fetch s).2).y = s.y := by simp [fetch]
@[simp] theorem fetch_p (s : State) : ((fetch s).2).p = s.p := by simp [fetch]
@[simp] theorem fetch_opcode (s : State) : ((fetch s).2).opcode = s.opcode := by simp [fetch]
@[simp] theorem fetch_desc (s : State) : ((fetch s).2).desc = s.desc := by simp [fetch]
@[simp] theorem fetch_remainingCycles (s : State) : ((fetch s).2).remainingCycles = s.remainingCycles := by simp [fetch]
@[simp] theorem fetch_inFlight (s : State) : ((fetch s).2).inFlight = s.inFlight := by simp [fetch]
@[simp] theorem fetch_operandRef (s : State) : ((fetch s).2).operandRef = s.operandRef := by simp [fetch]
@[simp] theorem fetch_branchOffset (s : State) : ((fetch s).2).branchOffset = s.branchOffset := by simp [fetch]
@[simp] theorem fetch_pageCrossed (s : State) : ((fetch s).2).pageCrossed = s.pageCrossed := by simp [fetch]
@[simp] theorem fetch_cyclesElapsed (s : State) : ((fetch s).2).cyclesElapsed = s.cyclesElapsed := by simp [fetch]
@[simp] theorem fetch_bus (s : State) : ((fetch s).2).bus = s.bus := by simp [fetch]
@[simp] theorem fetch_mem (s : State) : ((fetch s).2).mem = s.mem := by simp [fetch]
@[simp] theorem fetch_cfg (s : State) : ((fetch s).2).cfg = s.cfg := by simp [fetch]
@[simp] theorem fetch_hostCalls (s : State) : ((fetch s).2).hostCalls = s.hostCalls := by simp [fetch]
@[simp] theorem fetch_reply (s : State) : ((fetch s).2).reply = s.reply := by simp [fetch]

/-! ## Entering a handler and returning from it -/

@[simp] theorem enterHandler_sp (vec : Addr) (b : Byte) (s : State) : (enterHandler vec b s).sp = s.sp - 1 - 1 - 1 := by simp [enterHandler]
@[simp] theorem enterHandler_a (vec : Addr) (b : Byte) (s : State) : (enterHandler vec b s).a = s.a := by simp [enterHandler]
@[simp] theorem enterHandler_x (vec : Addr) (b : Byte) (s : State) : (enterHandler vec b s).x = s.x := by simp [enterHandler]
@[simp] theorem enterHandler_y (vec : Addr) (b : Byte) (s : State) : (enterHandler vec b s).y = s.y := by simp [enterHandler]
@[simp] theorem enterHandler_p (vec : Addr) (b : Byte) (s : State) : (enterHandler vec b s).p = putI true s.p := by simp [enterHandler]
@[simp] theorem enterHandler_opcode (vec : Addr) (b : Byte) (s : State) : (enterHandler vec b s).opcode = s.opcode := by simp [enterHandler]
@[simp] theorem enterHandler_desc (vec : Addr) (b : Byte) (s : State) : (enterHandler vec b s).desc = s.desc := by simp [enterHandler]
@[simp] theorem enterHandler_remainingCycles (vec : Addr) (b : Byte) (s : State) : (enterHandler vec b s).remainingCycles = s.remainingCycles := by simp [enterHandler]
@[simp] theorem enterHandler_inFlight (vec : Addr) (b : Byte) (s : State) : (enterHandler vec b s).inFlight = s.inFlight := by simp [enterHandler]
@[simp] theorem enterHandler_operandRef (vec : Addr) (b : Byte) (s : State) : (enterHandler vec b s).operandRef = s.operandRef := by simp [enterHandler]
@[simp] theorem enterHandler_branchOffset (vec : Addr) (b : Byte) (s : State) : (enterHandler vec b s).branchOffset = s.branchOffset := by simp [enterHandler]
@[simp] theorem enterHandler_pageCrossed (vec : Addr) (b : Byte) (s : State) : (enterHandler vec b s).pageCrossed = s.pageCrossed := by simp [enterHandler]
@[simp] theorem enterHandler_cyclesElapsed (vec : Addr) (b : Byte) (s : State) : (enterHandler vec b s).cyclesElapsed = s.cyclesElapsed := by simp [enterHandler]
@[simp] theorem enterHandler_bus (vec : Addr) (b : Byte) (s : State) : (enterHandler vec b s).bus = s.bus := by simp [enterHandler]
@[simp] theorem enterHandler_mem (vec : Addr) (b : Byte) (s : State) : (enterHandler vec b s).mem = memPut s.bus (memPut s.bus (memPut s.bus s.mem (stackAddr s.sp) (hi s.pc)) (stackAddr (s.sp - 1)) (lo s.pc)) (stackAddr (s.sp - 1 - 1)) b := by simp [enterHandler]
@[simp] theorem enterHandler_cfg (vec : Addr) (b : Byte) (s : State) : (enterHandler vec b s).cfg = s.cfg := by simp [enterHandler]
@[simp] theorem enterHandler_busTime (vec : Addr) (b : Byte) (s : State) : (enterHandler vec b s).busTime = s.busTime + 5 := by simp [enterHandler]
@[simp] theorem enterHandler_hostCalls (vec : Addr) (b : Byte) (s : State) : (enterHandler vec b s).hostCalls = s.hostCalls := by simp [enterHandler]
@[simp] theorem enterHandler_reply (vec : Addr) (b : Byte) (s : State) : (enterHandler vec b s).reply = s.reply := by simp [enterHandler]

@[simp] theorem leaveHandler_sp (s : State) : (leaveHandler s).sp = s.sp + 1 + 1 + 1 := by simp [leaveHandler]
@[simp] theorem leaveHandler_a (s : State) : (leaveHandler s).a = s.a := by simp [leaveHandler]
@[simp] theorem leaveHandler_x (s : State) : (leaveHandler s).x = s.x := by simp [leaveHandler]
@[simp] theorem leaveHandler_y (s : State) : (leaveHandler s).y = s.y := by simp [leaveHandler]
@[simp] theorem leaveHandler_p (s : State) : (leaveHandler s).p = pulledP s.p (busPeek s (stackAddr (s.sp + 1))) := by simp [leaveHandler]
@[simp] theorem leaveHandler_opcode (s : State) : (leaveHandler s).opcode = s.opcode := by simp [leaveHandler]
@[simp] theorem leaveHandler_desc (s : State) : (leaveHandler s).desc = s.desc := by simp [leaveHandler]
@[simp] theorem leaveHandler_remainingCycles (s : State) : (leaveHandler s).remainingCycles = s.remainingCycles := by simp [leaveHandler]
@[simp] theorem leaveHandler_inFlight (s : State) : (leaveHandler s).inFlight = s.inFlight := by simp [leaveHandler]
@[simp] theorem leaveHandler_operandRef (s : State) : (leaveHandler s).operandRef = s.operandRef := by simp [leaveHandler]
@[simp] theorem leaveHandler_branchOffset (s : State) : (leaveHandler s).branchOffset = s.branchOffset := by simp [leaveHandler]
@[simp] theorem leaveHandler_pageCrossed (s : State) : (leaveHandler s).pageCrossed = s.pageCrossed := by simp [leaveHandler]
@[simp] theorem leaveHandler_cyclesElapsed (s : State) : (leaveHandler s).cyclesElapsed = s.cyclesElapsed := by simp [leaveHandler]
@[simp] theorem leaveHandler_bus (s : State) : (leaveHandler s).bus = s.bus := by simp [leaveHandler]
@[simp] theorem leaveHandler_mem (s : State) : (leaveHandler s).mem = s.mem := by simp [leaveHandler]
@[simp] theorem leaveHandler_cfg (s : State) : (leaveHandler s).cfg = s.cfg := by simp [leaveHandler]
@[simp] theorem leaveHandler_busTime (s : State) : (leaveHandler s).busTime = s.busTime + 3 := by simp [leaveHandler]
@[simp] theorem leaveHandler_hostCalls (s : State) : (leaveHandler s).hostCalls = s.hostCalls := by simp [leaveHandler]
@[simp] theorem leaveHandler_reply (s : State) : (leaveHandler s).reply = s.reply := by simp [leaveHandler]

/-! ## The bus, as the statements see it -/

@[simp] theorem ramAt_busRead (s : State) (b a : Addr) : ramAt (busRead s b).2 a = ramAt s a := rfl
@[simp] theorem ramAt_fetchByte (s : State) (a : Addr) : ramAt (fetchByte s).2 a = ramAt s a := rfl
@[simp] theorem ramAt_fetchWord (s : State) (a : Addr) : ramAt (fetchWord s).2 a = ramAt s a := rfl
@[simp] theorem ramAt_enter (b : Byte) (s : State) (a : Addr) : ramAt (enter b s) a = ramAt s a := rfl

/-- On `FlatRAM64K` a bus read returns the RAM byte, in the words of the statements (R55). -/
theorem busPeek_ramAt {s : State} (h : s.bus = some .flatRam) (a : Addr) : busPeek s a = ramAt s a := busPeek_flat h a

/-- What a bus read returns `n` transactions after `s`, as long as the RAM is as in `s`. -/
theorem busPeek_eq_peekAt {s u : State} (n : Nat) (a : Addr) (hb : u.bus = s.bus) (hm : u.mem = s.mem)
    (ht : u.busTime = s.busTime + n) : busPeek u a = peekAt n s a := busPeek_congr a hb hm ht

/-- A byte fetch on `FlatRAM64K`, in full (R105). -/
theorem fetchByte_flat {t : State} (h : t.bus = some .flatRam) :
    fetchByte t = (ramAt t t.pc, { t with
      pc := t.pc + 1, busTime := t.busTime + 1, busLog := t.busLog ++ [.read t.pc (ramAt t t.pc)] }) := by
  simp [fetchByte, busRead, noteTxn, busPeek_ramAt h]

/-- The stack address as a number (R24). -/
theorem toNat_stackAddr (sp : Byte) : (stackAddr sp).toNat = 256 + sp.toNat := by
  revert sp
  decide +kernel

/-- A push does not reach what stands behind an address of the upper half, where the vectors are. -/
theorem memRead_memPut_stack {b : Option Bus} {m : List Host.Cell} (hm : memWf b m = true) (sp v : Byte) {a : Addr}
    (h : 0x8000 ≤ a.toNat) {k : Nat} (hk : backing b a = some k) :
    memRead (memPut b m (stackAddr sp) v) k = memRead m k := by
  rw [memRead_memPut hm, if_neg]
  intro hj
  have hs := toNat_stackAddr sp
  have hlt := sp.isLt
  unfold backing at hk hj
  cases b with
  | none => simp at hk
  | some b => cases b <;> simp at hk hj <;> omega

/-- Writing through the OperandRef keeps the canonical form. -/
theorem memWf_store {b : Option Bus} {s : State} (hb : s.bus = b) (h : memWf b s.mem = true) (v : Byte) :
    memWf b (store v s).mem = true := by
  unfold store
  split
  · subst hb
    exact memWf_memPut h _ _
  · exact h

/-! ## Page crosses, the IND pointer, branches -/

/-- The page-cross condition in numbers (R135). -/
theorem crosses_eq (b a : Addr) : crosses b a = decide (a.toNat / 256 ≠ b.toNat / 256) := by
  have h : hi b = hi a ↔ a.toNat / 256 = b.toNat / 256 := by
    rw [← BitVec.toNat_inj, toNat_hi, toNat_hi]
    omega
  unfold crosses
  by_cases e : hi b = hi a
  · simp [e, h.mp e]
  · simp [e, mt h.mpr e]

/-- The address of IND's high byte: the next one, or the first of the same page (R131). -/
theorem indHigh_eq (w : Addr) : indHigh w = if lo w = 0xFF then w - 0xFF else w + 1 := by
  unfold indHigh
  split
  · rename_i h
    apply BitVec.eq_of_toNat_eq
    have h2 : w.toNat % 256 = 255 := by
      rw [← toNat_lo, h]
      rfl
    have := w.isLt
    rw [toNat_w16, toNat_hi]
    simp [BitVec.toNat_sub]
    omega
  · rfl

/-- All that `branch` can do (R201). -/
theorem branch_cases (c : Bool) (s : State) :
    (c = false ∧ branch c s = (s, 0)) ∨
      (c = true ∧ branch c s =
        ({ s with pc := s.pc + s.branchOffset }, if crosses s.pc (s.pc + s.branchOffset) then 2 else 1)) := by
  cases c
  · exact .inl ⟨rfl, rfl⟩
  · exact .inr ⟨rfl, rfl⟩

/-! ## Running an operation -/

/-- An instruction with an opcode completes: `exec` answers the state after its operation. -/
theorem perform_next {i : Instr} {b : Byte} (h : i.opcode = some b) (op : State → State × Nat) (s : State) :
    perform i op s = .next (retire op (resolve i.operand (enter b s))) := by
  simp [perform, h]

/-- All that `perform` can do: an instruction with an opcode completes, any other term is refused. -/
theorem perform_cases (i : Instr) (op : State → State × Nat) (s : State) :
    (∃ b, i.opcode = some b ∧ perform i op s = .next (retire op (resolve i.operand (enter b s)))) ∨
      (i.opcode = none ∧ perform i op s = .refused .notEncodable) := by
  cases h : i.opcode with
  | some b => exact .inl ⟨b, rfl, perform_next h op s⟩
  | none => exact .inr ⟨rfl, by simp [perform, h]⟩

@[simp] theorem executeOp_pc (op : State → State × Nat) (s : State) : (executeOp op s).pc = (op s).1.pc := rfl
@[simp] theorem executeOp_sp (op : State → State × Nat) (s : State) : (executeOp op s).sp = (op s).1.sp := rfl
@[simp] theorem executeOp_a (op : State → State × Nat) (s : State) : (executeOp op s).a = (op s).1.a := rfl
@[simp] theorem executeOp_x (op : State → State × Nat) (s : State) : (executeOp op s).x = (op s).1.x := rfl
@[simp] theorem executeOp_y (op : State → State × Nat) (s : State) : (executeOp op s).y = (op s).1.y := rfl
@[simp] theorem executeOp_p (op : State → State × Nat) (s : State) : (executeOp op s).p = (op s).1.p := rfl
@[simp] theorem executeOp_opcode (op : State → State × Nat) (s : State) : (executeOp op s).opcode = (op s).1.opcode := rfl
@[simp] theorem executeOp_desc (op : State → State × Nat) (s : State) : (executeOp op s).desc = (op s).1.desc := rfl
@[simp] theorem executeOp_remainingCycles (op : State → State × Nat) (s : State) : (executeOp op s).remainingCycles = (op s).1.remainingCycles + (op s).2 := rfl
@[simp] theorem executeOp_inFlight (op : State → State × Nat) (s : State) : (executeOp op s).inFlight = false := rfl
@[simp] theorem executeOp_operandRef (op : State → State × Nat) (s : State) : (executeOp op s).operandRef = (op s).1.operandRef := rfl
@[simp] theorem executeOp_branchOffset (op : State → State × Nat) (s : State) : (executeOp op s).branchOffset = (op s).1.branchOffset := rfl
@[simp] theorem executeOp_pageCrossed (op : State → State × Nat) (s : State) : (executeOp op s).pageCrossed = (op s).1.pageCrossed := rfl
@[simp] theorem executeOp_cyclesElapsed (op : State → State × Nat) (s : State) : (executeOp op s).cyclesElapsed = (op s).1.cyclesElapsed := rfl
@[simp] theorem executeOp_bus (op : State → State × Nat) (s : State) : (executeOp op s).bus = (op s).1.bus := rfl
@[simp] theorem executeOp_mem (op : State → State × Nat) (s : State) : (executeOp op s).mem = (op s).1.mem := rfl
@[simp] theorem executeOp_cfg (op : State → State × Nat) (s : State) : (executeOp op s).cfg = (op s).1.cfg := rfl
@[simp] theorem executeOp_busTime (op : State → State × Nat) (s : State) : (executeOp op s).busTime = (op s).1.busTime := rfl
@[simp] theorem executeOp_busLog (op : State → State × Nat) (s : State) : (executeOp op s).busLog = (op s).1.busLog := rfl
@[simp] theorem executeOp_hostCalls (op : State → State × Nat) (s : State) : (executeOp op s).hostCalls = (op s).1.hostCalls := rfl
@[simp] theorem executeOp_reply (op : State → State × Nat) (s : State) : (executeOp op s).reply = (op s).1.reply := rfl

/-! ## Calls of the interface -/

theorem whenConnected_some {s : State} {b : Bus} (h : s.bus = some b) (r : CallResult) : whenConnected s r = r := by
  simp [whenConnected, h]

theorem whenConnected_none {s : State} (h : s.bus = none) (r : CallResult) :
    whenConnected s r = .refused .notConnected := by
  simp [whenConnected, h]

/-- On a connected core a call answers what its own rule says. -/
theorem whenConnected_of {s : State} (h : Connected s) (r : CallResult) : whenConnected s r = r := by
  obtain ⟨b, hb⟩ := Option.isSome_iff_exists.mp h
  exact whenConnected_some hb r

/-- A call other than `connect` that answers was made on a connected core. -/
theorem whenConnected_eq_next {s t : State} {r : CallResult} (h : whenConnected s r = .next t) :
    s.bus.isSome = true ∧ r = .next t := by
  unfold whenConnected at h
  split at h
  · rename_i hb
    exact ⟨by simp [hb], h⟩
  · cases h

end Sys2Proof.Machine
end

