-- ==== Sys2Proof/Laws/Exec.lean ====
section
/-! SUPPORT. What `exec` can do, said once for all instructions: a well-formed instruction runs its operation in the state
`atOperation`, any other term is refused. -/

namespace Sys2Proof.Machine

/-- `exec` of any instruction is `perform` of its operation. -/
theorem exec_eq_perform (i : Instr) (s : State) : exec i s = perform i (operationOf i.operation) s := by
  cases i <;> rfl

/-- A well-formed instruction answers the state after its operation. -/
theorem exec_of_wf {i : Instr} (h : i.wf = true) (s : State) :
    exec i s = .next (executeOp (operationOf i.operation) (atOperation i s)) := by
  obtain ⟨b, hb⟩ := opcode_of_wf h
  rw [exec_eq_perform, perform_next hb]
  simp [atOperation, retire, hb]

/-- A term that is no instruction is refused. -/
theorem exec_of_not_wf {i : Instr} (h : i.wf = false) (s : State) : exec i s = .refused .notEncodable := by
  have hn : i.opcode = none := by
    cases ho : i.opcode with
    | none => rfl
    | some b =>
      have := (opcode_isSome_iff_wf i).mp (by simp [ho])
      simp [h] at this
  rw [exec_eq_perform]
  simp [perform, hn]

/-- All that `exec` can do when it answers a next state. -/
theorem exec_eq_next {i : Instr} {s t : State} (h : exec i s = .next t) :
    i.wf = true ∧ t = executeOp (operationOf i.operation) (atOperation i s) := by
  cases hw : i.wf with
  | true =>
    rw [exec_of_wf hw] at h
    cases h
    exact ⟨rfl, rfl⟩
  | false =>
    rw [exec_of_not_wf hw] at h
    cases h

/-- `exec` never ends in a fault. -/
theorem exec_ne_fault (i : Instr) (s : State) (f : Fault) : exec i s ≠ .fault f := by
  cases hw : i.wf with
  | true => simp [exec_of_wf hw]
  | false => simp [exec_of_not_wf hw]

/-! ## The state an operation runs in -/

@[simp] theorem atOperation_pc (i : Instr) (s : State) : (atOperation i s).pc = s.pc := by simp [atOperation]
@[simp] theorem atOperation_sp (i : Instr) (s : State) : (atOperation i s).sp = s.sp := by simp [atOperation]
@[simp] theorem atOperation_a (i : Instr) (s : State) : (atOperation i s).a = s.a := by simp [atOperation]
@[simp] theorem atOperation_x (i : Instr) (s : State) : (atOperation i s).x = s.x := by simp [atOperation]
@[simp] theorem atOperation_y (i : Instr) (s : State) : (atOperation i s).y = s.y := by simp [atOperation]
@[simp] theorem atOperation_p (i : Instr) (s : State) : (atOperation i s).p = s.p := by simp [atOperation]
@[simp] theorem atOperation_opcode (i : Instr) (s : State) : (atOperation i s).opcode = i.opcode.getD 0 := by simp [atOperation]
@[simp] theorem atOperation_desc (i : Instr) (s : State) : (atOperation i s).desc = some (descriptor (i.opcode.getD 0)) := by simp [atOperation]
@[simp] theorem atOperation_remainingCycles (i : Instr) (s : State) : (atOperation i s).remainingCycles = 0 := by simp [atOperation]
@[simp] theorem atOperation_inFlight (i : Instr) (s : State) : (atOperation i s).inFlight = true := by simp [atOperation]
@[simp] theorem atOperation_cyclesElapsed (i : Instr) (s : State) : (atOperation i s).cyclesElapsed = s.cyclesElapsed + baseCyclesOf i := by simp [atOperation, baseCyclesOf]
@[simp] theorem atOperation_bus (i : Instr) (s : State) : (atOperation i s).bus = s.bus := by simp [atOperation]
@[simp] theorem atOperation_mem (i : Instr) (s : State) : (atOperation i s).mem = s.mem := by simp [atOperation]
@[simp] theorem atOperation_cfg (i : Instr) (s : State) : (atOperation i s).cfg = s.cfg := by simp [atOperation]
@[simp] theorem atOperation_hostCalls (i : Instr) (s : State) : (atOperation i s).hostCalls = s.hostCalls := by simp [atOperation]
@[simp] theorem atOperation_reply (i : Instr) (s : State) : (atOperation i s).reply = s.reply := by simp [atOperation]

/-- Every operation leaves the clock, the transient state, the parameters and the host's side as they are. -/
theorem operationOf_frame (o : Operation) (s : State) :
    (operationOf o s).1.cfg = s.cfg ∧ (operationOf o s).1.bus = s.bus ∧ (operationOf o s).1.hostCalls = s.hostCalls ∧
    (operationOf o s).1.reply = s.reply ∧ (operationOf o s).1.cyclesElapsed = s.cyclesElapsed ∧
    (operationOf o s).1.remainingCycles = s.remainingCycles ∧ (operationOf o s).1.inFlight = s.inFlight ∧
    (operationOf o s).1.opcode = s.opcode ∧ (operationOf o s).1.desc = s.desc ∧
    (operationOf o s).1.operandRef = s.operandRef ∧ (operationOf o s).1.branchOffset = s.branchOffset ∧
    (operationOf o s).1.pageCrossed = s.pageCrossed := by
  cases o <;> refine ⟨?_, ?_, ?_, ?_, ?_, ?_, ?_, ?_, ?_, ?_, ?_, ?_⟩ <;>
  simp [operationOf, opAdc, opAnd, opAsl, opBcc, opBcs, opBeq, opBit, opBmi, opBne, opBpl, opBrk, opBvc, opBvs, opClc, opCld,
    opCli, opClv, opCmp, opCpx, opCpy, opDec, opDex, opDey, opEor, opInc, opInx, opIny, opJmp, opJsr, opLda, opLdx, opLdy,
    opLsr, opNop, opOra, opPha, opPhp, opPla, opPlp, opRol, opRor, opRti, opRts, opSbc, opSec, opSed, opSei, opSta, opStx,
    opSty, opTax, opTay, opTsx, opTxa, opTxs, opTya, opXxx, modifyOperand, addToOperand, pushWord, popWord]
  all_goals (unfold branch; split <;> rfl)

/-- Every operation keeps the memory's canonical form. -/
theorem memWf_operationOf (o : Operation) {s : State} (h : memWf s.bus s.mem = true) :
    memWf s.bus (operationOf o s).1.mem = true := by
  cases o <;>
  simp [operationOf, opAdc, opAnd, opAsl, opBcc, opBcs, opBeq, opBit, opBmi, opBne, opBpl, opBrk, opBvc, opBvs, opClc, opCld,
    opCli, opClv, opCmp, opCpx, opCpy, opDec, opDex, opDey, opEor, opInc, opInx, opIny, opJmp, opJsr, opLda, opLdx, opLdy,
    opLsr, opNop, opOra, opPha, opPhp, opPla, opPlp, opRol, opRor, opRti, opRts, opSbc, opSec, opSed, opSei, opSta, opStx,
    opSty, opTax, opTay, opTsx, opTxa, opTxs, opTya, opXxx, modifyOperand, addToOperand, pushWord, popWord]
  all_goals first
    | exact h
    | (unfold branch; split <;> exact h)
    | exact memWf_store rfl h _
    | exact memWf_store (by simp) (by simpa using h) _
    | exact memWf_memPut h _ _
    | exact memWf_memPut (memWf_memPut h _ _) _ _
    | exact memWf_memPut (memWf_memPut (memWf_memPut h _ _) _ _) _ _

/-- Only IND, IZX and IZY make bus transactions when their operand is resolved (R134). -/
theorem atOperation_busTime {i : Instr} (s : State) (h : i.operand.mode ∉ [Mode.ind, .izx, .izy]) :
    (atOperation i s).busTime = s.busTime ∧ (atOperation i s).busLog = s.busLog := by
  generalize ho : i.operand = o at h
  unfold atOperation
  rw [ho]
  cases o <;> simp_all [resolve, Operand.mode]

/-- A well-formed instruction of a mode that names a memory operand has an address as its OperandRef (R136). -/
theorem atOperation_mem_of_mode {i : Instr} {s : State} (hm : i.operand.mode ∉ [Mode.imp, .acc, .rel]) :
    ∃ a, (atOperation i s).operandRef = .mem a := by
  unfold atOperation
  generalize i.operand = o at *
  cases o <;> first | exact ⟨_, rfl⟩ | simp [Operand.mode] at hm

/-! ## Completing -/

/-- Memory that an instruction has not written. -/
theorem memoryAfter_nil {s t : State} (h : t.mem = s.mem) : memoryAfter [] s t := by
  intro k
  simp [byteAfter, h]

/-- Memory after one bus write. -/
theorem memoryAfter_one {s t : State} {a : Addr} {v : Byte} (hw : memWf s.bus s.mem = true)
    (h : t.mem = memPut s.bus s.mem a v) : memoryAfter [(a, v)] s t := by
  intro k
  rw [h, memRead_memPut hw]
  rfl

/-- A well-formed instruction completes when its operation's result is what is claimed of it. -/
theorem completes_of_operation {i : Instr} {s : State} {r : Snapshot} {writes : List (Addr × Byte)} {extra : Nat}
    (hw : i.wf = true) (op : State → State × Nat) (hop : operationOf i.operation = op)
    (hr : getState (op (atOperation i s)).1 = r) (hm : memoryAfter writes s (op (atOperation i s)).1)
    (ho : sameOutside s (op (atOperation i s)).1) (he : (op (atOperation i s)).2 = extra)
    (hc : (op (atOperation i s)).1.cyclesElapsed = s.cyclesElapsed + baseCyclesOf i)
    (hz : (op (atOperation i s)).1.remainingCycles = 0) : Completes i s r writes extra := by
  subst hop
  refine ⟨_, exec_of_wf hw s, ?_, ?_, ?_, rfl, ?_, ?_⟩
  · exact hr
  · exact hm
  · exact ho
  · exact hc
  · simp [he, hz]

end Sys2Proof.Machine
end

