-- ==== Sys2Proof/Laws/Flags.lean ====
section
/-! SUPPORT. What each write of a flag does to every flag (10_state.md R25, R34). -/

namespace Sys2Proof.Machine

/-- Writing C leaves the seven other bits. -/
@[simp] theorem flags_putC (b : Bool) (p : Byte) :
    flagC (putC b p) = b ∧ flagZ (putC b p) = flagZ p ∧ flagI (putC b p) = flagI p ∧ flagD (putC b p) = flagD p ∧
    flagB (putC b p) = flagB p ∧ flagU (putC b p) = flagU p ∧ flagV (putC b p) = flagV p ∧ flagN (putC b p) = flagN p := by
  cases b <;> simp [putC, putFlag, flagC, flagZ, flagI, flagD, flagB, flagU, flagV, flagN]

/-- Writing Z leaves the seven other bits. -/
@[simp] theorem flags_putZ (b : Bool) (p : Byte) :
    flagC (putZ b p) = flagC p ∧ flagZ (putZ b p) = b ∧ flagI (putZ b p) = flagI p ∧ flagD (putZ b p) = flagD p ∧
    flagB (putZ b p) = flagB p ∧ flagU (putZ b p) = flagU p ∧ flagV (putZ b p) = flagV p ∧ flagN (putZ b p) = flagN p := by
  cases b <;> simp [putZ, putFlag, flagC, flagZ, flagI, flagD, flagB, flagU, flagV, flagN]

/-- Writing I leaves the seven other bits. -/
@[simp] theorem flags_putI (b : Bool) (p : Byte) :
    flagC (putI b p) = flagC p ∧ flagZ (putI b p) = flagZ p ∧ flagI (putI b p) = b ∧ flagD (putI b p) = flagD p ∧
    flagB (putI b p) = flagB p ∧ flagU (putI b p) = flagU p ∧ flagV (putI b p) = flagV p ∧ flagN (putI b p) = flagN p := by
  cases b <;> simp [putI, putFlag, flagC, flagZ, flagI, flagD, flagB, flagU, flagV, flagN]

/-- Writing D leaves the seven other bits. -/
@[simp] theorem flags_putD (b : Bool) (p : Byte) :
    flagC (putD b p) = flagC p ∧ flagZ (putD b p) = flagZ p ∧ flagI (putD b p) = flagI p ∧ flagD (putD b p) = b ∧
    flagB (putD b p) = flagB p ∧ flagU (putD b p) = flagU p ∧ flagV (putD b p) = flagV p ∧ flagN (putD b p) = flagN p := by
  cases b <;> simp [putD, putFlag, flagC, flagZ, flagI, flagD, flagB, flagU, flagV, flagN]

/-- Writing V leaves the seven other bits. -/
@[simp] theorem flags_putV (b : Bool) (p : Byte) :
    flagC (putV b p) = flagC p ∧ flagZ (putV b p) = flagZ p ∧ flagI (putV b p) = flagI p ∧ flagD (putV b p) = flagD p ∧
    flagB (putV b p) = flagB p ∧ flagU (putV b p) = flagU p ∧ flagV (putV b p) = b ∧ flagN (putV b p) = flagN p := by
  cases b <;> simp [putV, putFlag, flagC, flagZ, flagI, flagD, flagB, flagU, flagV, flagN]

/-- Writing N leaves the seven other bits. -/
@[simp] theorem flags_putN (b : Bool) (p : Byte) :
    flagC (putN b p) = flagC p ∧ flagZ (putN b p) = flagZ p ∧ flagI (putN b p) = flagI p ∧ flagD (putN b p) = flagD p ∧
    flagB (putN b p) = flagB p ∧ flagU (putN b p) = flagU p ∧ flagV (putN b p) = flagV p ∧ flagN (putN b p) = b := by
  cases b <;> simp [putN, putFlag, flagC, flagZ, flagI, flagD, flagB, flagU, flagV, flagN]

/-- A pull keeps the live B and U and takes the six other bits (R34). -/
@[simp] theorem flags_pulledP (p v : Byte) :
    flagC (pulledP p v) = flagC v ∧ flagZ (pulledP p v) = flagZ v ∧ flagI (pulledP p v) = flagI v ∧ flagD (pulledP p v) = flagD v ∧
    flagB (pulledP p v) = flagB p ∧ flagU (pulledP p v) = flagU p ∧ flagV (pulledP p v) = flagV v ∧ flagN (pulledP p v) = flagN v := by
  simp [pulledP, flagC, flagZ, flagI, flagD, flagB, flagU, flagV, flagN]

end Sys2Proof.Machine
end

