-- ==== Sys2Proof/Laws/Step.lean ====
section
/-! SUPPORT. What `run_cycle`, `run_instruction` and a step can do, said once. -/

namespace Sys2Proof.Machine

/-! ## Fetching and executing -/

/-- The operand that the fetch assembles is one of the decoder's operands for the mode. -/
theorem fetchOperand_eq (m : Mode) (s : State) : ∃ b1 b2, (fetchOperand m s).1 = operandOf m b1 b2 := by
  cases m
  case imm => exact ⟨_, 0, rfl⟩
  all_goals first | exact ⟨_, 0, rfl⟩ | exact ⟨_, _, rfl⟩ | exact ⟨0, 0, rfl⟩

/-- A byte fetch `n` transactions after `s`, in full, on every bus (R105). -/
theorem fetchByte_eq {s t : State} (n : Nat) (hb : t.bus = s.bus) (hm : t.mem = s.mem) (ht : t.busTime = s.busTime + n) :
    fetchByte t = (peekAt n s t.pc, { t with
      pc := t.pc + 1, busTime := t.busTime + 1, busLog := t.busLog ++ [.read t.pc (peekAt n s t.pc)] }) := by
  simp [fetchByte, busRead, noteTxn, busPeek_eq_peekAt n t.pc hb hm ht]

/-- Executing the instruction that `fetch` reads is `fetch_and_resolve()`, the base cycles, and the operation that the
opcode's descriptor names (R105, R106). -/
theorem exec_fetch (s : State) :
    exec (fetch s).1 (fetch s).2 =
      .next (retire (operationOf (descriptor (busPeek s s.pc)).operation) (fetchAndResolve s)) := by
  simp only [fetch]
  obtain ⟨b1, b2, h⟩ := fetchOperand_eq (descriptor (fetchByte s).1).mode (fetchByte s).2
  obtain ⟨l1, l2, l3⟩ := instrOf_law (fetchByte s).1 b1 b2
  rw [← h] at l1 l2 l3
  rw [exec_of_wf l1, instrOf_operation]
  simp only [atOperation, l2, l3, Option.getD_some]
  rfl

/-- `run_instruction()` at a boundary answers a next state, whatever the bytes at the PC. -/
theorem runInstruction_boundary {s : State} (hf : s.inFlight = false) :
    runInstruction s = .next (reportCycles s (passCycles
      (retire (operationOf (descriptor (busPeek s s.pc)).operation) (fetchAndResolve (passCycles s))))) := by
  simp only [runInstruction, hf, runFromBoundary, exec_fetch]
  simp only [passCycles_pc]
  rw [busPeek_congr (s := s) (t := passCycles s)] <;> rfl

/-- `run_instruction()` in the middle of an instruction finishes it. -/
theorem runInstruction_inFlight {s : State} {d : Descriptor} (hf : s.inFlight = true) (hd : s.desc = some d) :
    runInstruction s = .next (reportCycles s (passCycles
      (retire (operationOf d.operation) { s with remainingCycles := max 1 s.remainingCycles }))) := by
  simp only [runInstruction, hf, finishInFlight, hd, if_true]

/-! ## One cycle -/

/-- The waiting part of a `run_cycle`: nothing to fetch. -/
theorem beforeExecute_wait {s : State} (h : ¬(s.remainingCycles = 0 ∧ s.inFlight = false)) :
    beforeExecute s =
      { s with cyclesElapsed := s.cyclesElapsed + 1, remainingCycles := s.remainingCycles - 1 } := by
  simp only [beforeExecute, if_neg h]

/-- The fetching part of a `run_cycle`. -/
theorem beforeExecute_fetch {s : State} (hr : s.remainingCycles = 0) (hf : s.inFlight = false) :
    beforeExecute s =
      { fetchAndResolve { s with cyclesElapsed := s.cyclesElapsed + 1 } with
        remainingCycles := (fetchAndResolve { s with cyclesElapsed := s.cyclesElapsed + 1 }).remainingCycles - 1 } := by
  simp only [beforeExecute, hr, hf, and_self, if_true]

/-! ## One step -/

/-- All that a step can be: the host's first listed call, or `run_instruction()` (log entries 1 and 2). -/
theorem step_cases (s : State) :
    (s.hostCalls = [] ∧ step s = hostCall .runInstruction (clearPorts s)) ∨
      ∃ c cs, s.hostCalls = c :: cs ∧ step s = hostCall c (clearPorts { s with hostCalls := cs }) := by
  cases h : s.hostCalls with
  | nil => exact .inl ⟨rfl, by simp [step, hostStep, h, hostCall]⟩
  | cons c cs => exact .inr ⟨c, cs, rfl, by simp [step, hostStep, h]⟩

/-- A core is connected or has no bus. -/
theorem bus_none_of_not_connected {s : State} (h : ¬Connected s) : s.bus = none := by
  cases hb : s.bus with
  | none => rfl
  | some b => exact absurd (by rw [Connected, hb]; rfl) h

end Sys2Proof.Machine
end

