-- ==== Sys2Proof/Tests/Slice0.lean ====
section
/-! SUPPORT. Tests: what is no instruction, one opcode per constructor, one step per vector of 95_test_vectors.md, and a
witness for the hypotheses of every statement. -/

namespace Sys2Proof.Tests

open Sys2Proof.Machine

/-! ## Helpers -/

/-- A state of 95_test_vectors.md: six registers and some bytes on `FlatRAM64K`, at a boundary with no cycle left. -/
def machine (decimal : Bool) (r : Snapshot) (cells : List (Addr × Byte)) : State :=
  putState r { State.reset with
    remainingCycles := 0
    mem := cells.foldl (fun m c => memWrite m c.1.toNat c.2) []
    cfg := { decimalMode := decimal }
    busTime := 0
    busLog := [] }

/-- A result's next state. -/
def next? : CallResult → Option State
  | .next t => some t
  | .fault _ => none
  | .refused _ => none

/-- The refusal of a result. -/
def refusal? : CallResult → Option Refusal
  | .next _ => none
  | .fault _ => none
  | .refused r => some r

/-- What the spec's tables show of a state: its registers, what was handed back, and some bytes of memory. -/
def shown (watch : List Addr) (t : State) : Snapshot × Option Reply × List Byte :=
  (getState t, t.reply, watch.map (ramAt t))

/-- What they show after one step. -/
def after (s : State) (watch : List Addr) : Option (Snapshot × Option Reply × List Byte) :=
  (next? (step s)).map (shown watch)

/-! ## One step per vector (95_test_vectors.md, section 3) -/

/-- V5, `LDA $FFFF,X (16-bit wrap)`. -/
theorem test_V5_lda : after (machine false
    ⟨0x0200, 0xFD, 0x00, 0x01, 0x00, 0x34⟩ [(0x0200, 0xBD), (0x0201, 0xFF), (0x0202, 0xFF), (0x0000, 0x55)]) [] =
    some (⟨0x0203, 0xFD, 0x55, 0x01, 0x00, 0x34⟩, some (.cycles 5), []) := by decide

/-- V6, `LDA ($FF,X) (ptr wrap)`. -/
theorem test_V6_lda : after (machine false
    ⟨0x0200, 0xFD, 0x00, 0x00, 0x00, 0x34⟩ [(0x0200, 0xA1), (0x0201, 0xFF), (0x00FF, 0x34), (0x0000, 0x12), (0x1234, 0x99)]) [] =
    some (⟨0x0202, 0xFD, 0x99, 0x00, 0x00, 0xB4⟩, some (.cycles 6), []) := by decide

/-- V9, `LDX $FF,Y`. -/
theorem test_V9_ldx : after (machine false
    ⟨0x0200, 0xFD, 0x00, 0x00, 0x02, 0x34⟩ [(0x0200, 0xB6), (0x0201, 0xFF), (0x0001, 0x80)]) [] =
    some (⟨0x0202, 0xFD, 0x00, 0x80, 0x02, 0xB4⟩, some (.cycles 4), []) := by decide

/-- V10, `LDX $04F0,Y`. -/
theorem test_V10_ldx : after (machine false
    ⟨0x0200, 0xFD, 0x00, 0x00, 0x20, 0x34⟩ [(0x0200, 0xBE), (0x0201, 0xF0), (0x0202, 0x04), (0x0510, 0x00)]) [] =
    some (⟨0x0203, 0xFD, 0x00, 0x00, 0x20, 0x36⟩, some (.cycles 5), []) := by decide

/-- V11, `LDY $12FF,X`. -/
theorem test_V11_ldy : after (machine false
    ⟨0x0200, 0xFD, 0x00, 0x01, 0x00, 0x34⟩ [(0x0200, 0xBC), (0x0201, 0xFF), (0x0202, 0x12), (0x1300, 0x00)]) [] =
    some (⟨0x0203, 0xFD, 0x00, 0x01, 0x00, 0x36⟩, some (.cycles 5), []) := by decide

/-- V12, `STA $12FF,X`. -/
theorem test_V12_sta : after (machine false
    ⟨0x0200, 0xFD, 0x42, 0x01, 0x00, 0x34⟩ [(0x0200, 0x9D), (0x0201, 0xFF), (0x0202, 0x12)]) [0x1300] =
    some (⟨0x0203, 0xFD, 0x42, 0x01, 0x00, 0x34⟩, some (.cycles 5), [0x42]) := by decide

/-- V13, `STA ($20),Y`. -/
theorem test_V13_sta : after (machine false
    ⟨0x0200, 0xFD, 0x42, 0x00, 0x10, 0x34⟩ [(0x0200, 0x91), (0x0201, 0x20), (0x0020, 0xF8), (0x0021, 0x04)]) [0x0508] =
    some (⟨0x0202, 0xFD, 0x42, 0x00, 0x10, 0x34⟩, some (.cycles 6), [0x42]) := by decide

/-- V14, `STX $FF,Y`. -/
theorem test_V14_stx : after (machine false
    ⟨0x0200, 0xFD, 0x00, 0x33, 0x02, 0x34⟩ [(0x0200, 0x96), (0x0201, 0xFF)]) [0x0001] =
    some (⟨0x0202, 0xFD, 0x00, 0x33, 0x02, 0x34⟩, some (.cycles 4), [0x33]) := by decide

/-- V15, `STY $FF,X`. -/
theorem test_V15_sty : after (machine false
    ⟨0x0200, 0xFD, 0x00, 0x01, 0x44, 0x34⟩ [(0x0200, 0x94), (0x0201, 0xFF)]) [0x0000] =
    some (⟨0x0202, 0xFD, 0x00, 0x01, 0x44, 0x34⟩, some (.cycles 4), [0x44]) := by decide

/-- V16, `TAX`. -/
theorem test_V16_tax : after (machine false
    ⟨0x0200, 0xFD, 0x00, 0x12, 0x00, 0x34⟩ [(0x0200, 0xAA)]) [] =
    some (⟨0x0201, 0xFD, 0x00, 0x00, 0x00, 0x36⟩, some (.cycles 2), []) := by decide

/-- V17, `TSX`. -/
theorem test_V17_tsx : after (machine false
    ⟨0x0200, 0xFD, 0x00, 0x00, 0x00, 0x34⟩ [(0x0200, 0xBA)]) [] =
    some (⟨0x0201, 0xFD, 0x00, 0xFD, 0x00, 0xB4⟩, some (.cycles 2), []) := by decide

/-- V18, `TXS`. -/
theorem test_V18_txs : after (machine false
    ⟨0x0200, 0xFD, 0x00, 0x00, 0x00, 0x34⟩ [(0x0200, 0x9A)]) [] =
    some (⟨0x0201, 0x00, 0x00, 0x00, 0x00, 0x34⟩, some (.cycles 2), []) := by decide

/-- V19, `TYA`. -/
theorem test_V19_tya : after (machine false
    ⟨0x0200, 0xFD, 0x00, 0x00, 0x80, 0x34⟩ [(0x0200, 0x98)]) [] =
    some (⟨0x0201, 0xFD, 0x80, 0x00, 0x80, 0xB4⟩, some (.cycles 2), []) := by decide

/-- V20, `TXA`. -/
theorem test_V20_txa : after (machine false
    ⟨0x0200, 0xFD, 0xFF, 0x01, 0x00, 0x34⟩ [(0x0200, 0x8A)]) [] =
    some (⟨0x0201, 0xFD, 0x01, 0x01, 0x00, 0x34⟩, some (.cycles 2), []) := by decide

/-- V21, `TAY`. -/
theorem test_V21_tay : after (machine false
    ⟨0x0200, 0xFD, 0x7F, 0x00, 0x00, 0x34⟩ [(0x0200, 0xA8)]) [] =
    some (⟨0x0201, 0xFD, 0x7F, 0x00, 0x7F, 0x34⟩, some (.cycles 2), []) := by decide

/-- V22, `PHA (SP=0x00)`. -/
theorem test_V22_pha : after (machine false
    ⟨0x0200, 0x00, 0x42, 0x00, 0x00, 0x34⟩ [(0x0200, 0x48)]) [0x0100] =
    some (⟨0x0201, 0xFF, 0x42, 0x00, 0x00, 0x34⟩, some (.cycles 3), [0x42]) := by decide

/-- V23, `PHP`. -/
theorem test_V23_php : after (machine false
    ⟨0x0200, 0xFD, 0x00, 0x00, 0x00, 0xC3⟩ [(0x0200, 0x08)]) [0x01FD] =
    some (⟨0x0201, 0xFC, 0x00, 0x00, 0x00, 0xC3⟩, some (.cycles 3), [0xF3]) := by decide

/-- V24, `PLA (SP=0xFF)`. -/
theorem test_V24_pla : after (machine false
    ⟨0x0200, 0xFF, 0x00, 0x00, 0x00, 0x34⟩ [(0x0200, 0x68), (0x0100, 0x80)]) [] =
    some (⟨0x0201, 0x00, 0x80, 0x00, 0x00, 0xB4⟩, some (.cycles 4), []) := by decide

/-- V25, `PLP`. -/
theorem test_V25_plp : after (machine false
    ⟨0x0200, 0xFC, 0x00, 0x00, 0x00, 0x34⟩ [(0x0200, 0x28), (0x01FD, 0x00)]) [] =
    some (⟨0x0201, 0xFD, 0x00, 0x00, 0x00, 0x30⟩, some (.cycles 4), []) := by decide

/-- V26, `PLP`. -/
theorem test_V26_plp : after (machine false
    ⟨0x0200, 0xFC, 0x00, 0x00, 0x00, 0x00⟩ [(0x0200, 0x28), (0x01FD, 0xFF)]) [] =
    some (⟨0x0201, 0xFD, 0x00, 0x00, 0x00, 0xCF⟩, some (.cycles 4), []) := by decide

/-- V27, `AND #$0F`. -/
theorem test_V27_and : after (machine false
    ⟨0x0200, 0xFD, 0xF0, 0x00, 0x00, 0x34⟩ [(0x0200, 0x29), (0x0201, 0x0F)]) [] =
    some (⟨0x0202, 0xFD, 0x00, 0x00, 0x00, 0x36⟩, some (.cycles 2), []) := by decide

/-- V28, `ORA #$80`. -/
theorem test_V28_ora : after (machine false
    ⟨0x0200, 0xFD, 0x01, 0x00, 0x00, 0x34⟩ [(0x0200, 0x09), (0x0201, 0x80)]) [] =
    some (⟨0x0202, 0xFD, 0x81, 0x00, 0x00, 0xB4⟩, some (.cycles 2), []) := by decide

/-- V29, `EOR #$FF`. -/
theorem test_V29_eor : after (machine false
    ⟨0x0200, 0xFD, 0xFF, 0x00, 0x00, 0x34⟩ [(0x0200, 0x49), (0x0201, 0xFF)]) [] =
    some (⟨0x0202, 0xFD, 0x00, 0x00, 0x00, 0x36⟩, some (.cycles 2), []) := by decide

/-- V30, `AND ($20),Y (cross)`. -/
theorem test_V30_and : after (machine false
    ⟨0x0200, 0xFD, 0xFF, 0x00, 0xFF, 0x34⟩ [(0x0200, 0x31), (0x0201, 0x20), (0x0020, 0x01), (0x0021, 0x04), (0x0500, 0x81)]) [] =
    some (⟨0x0202, 0xFD, 0x81, 0x00, 0xFF, 0xB4⟩, some (.cycles 6), []) := by decide

/-- V34, `ADC #$80 (A=0x80,C=0)`. -/
theorem test_V34_adc : after (machine false
    ⟨0x0200, 0xFD, 0x80, 0x00, 0x00, 0x34⟩ [(0x0200, 0x69), (0x0201, 0x80)]) [] =
    some (⟨0x0202, 0xFD, 0x00, 0x00, 0x00, 0x77⟩, some (.cycles 2), []) := by decide

/-- V41, `SBC #$01 (A=0x80,C=1)`. -/
theorem test_V41_sbc : after (machine false
    ⟨0x0200, 0xFD, 0x80, 0x00, 0x00, 0x35⟩ [(0x0200, 0xE9), (0x0201, 0x01)]) [] =
    some (⟨0x0202, 0xFD, 0x7F, 0x00, 0x00, 0x75⟩, some (.cycles 2), []) := by decide

/-- V44, `??? #$03 (0xEB alias)`. -/
theorem test_V44_sbcEB : after (machine false
    ⟨0x0200, 0xFD, 0x05, 0x00, 0x00, 0x35⟩ [(0x0200, 0xEB), (0x0201, 0x03)]) [] =
    some (⟨0x0202, 0xFD, 0x02, 0x00, 0x00, 0x35⟩, some (.cycles 2), []) := by decide

/-- V47, `ADC #$01 (DECIMAL_MODE=true)`. -/
theorem test_V47_adc : after (machine true
    ⟨0x0200, 0xFD, 0x99, 0x00, 0x00, 0x3C⟩ [(0x0200, 0x69), (0x0201, 0x01)]) [] =
    some (⟨0x0202, 0xFD, 0x00, 0x00, 0x00, 0xBD⟩, some (.cycles 2), []) := by decide

/-- V49, `SBC #$01 (DECIMAL_MODE=true)`. -/
theorem test_V49_sbc : after (machine true
    ⟨0x0200, 0xFD, 0x00, 0x00, 0x00, 0x3D⟩ [(0x0200, 0xE9), (0x0201, 0x01)]) [] =
    some (⟨0x0202, 0xFD, 0x99, 0x00, 0x00, 0xBC⟩, some (.cycles 2), []) := by decide

/-- V51, `ASL A`. -/
theorem test_V51_asl : after (machine false
    ⟨0x0200, 0xFD, 0x80, 0x00, 0x00, 0x34⟩ [(0x0200, 0x0A)]) [] =
    some (⟨0x0201, 0xFD, 0x00, 0x00, 0x00, 0x37⟩, some (.cycles 2), []) := by decide

/-- V52, `LSR A`. -/
theorem test_V52_lsr : after (machine false
    ⟨0x0200, 0xFD, 0x01, 0x00, 0x00, 0x34⟩ [(0x0200, 0x4A)]) [] =
    some (⟨0x0201, 0xFD, 0x00, 0x00, 0x00, 0x37⟩, some (.cycles 2), []) := by decide

/-- V53, `ROL A (C=1)`. -/
theorem test_V53_rol : after (machine false
    ⟨0x0200, 0xFD, 0x40, 0x00, 0x00, 0x35⟩ [(0x0200, 0x2A)]) [] =
    some (⟨0x0201, 0xFD, 0x81, 0x00, 0x00, 0xB4⟩, some (.cycles 2), []) := by decide

/-- V54, `ROR A (C=1)`. -/
theorem test_V54_ror : after (machine false
    ⟨0x0200, 0xFD, 0x00, 0x00, 0x00, 0x35⟩ [(0x0200, 0x6A)]) [] =
    some (⟨0x0201, 0xFD, 0x80, 0x00, 0x00, 0xB4⟩, some (.cycles 2), []) := by decide

/-- V55, `ASL $10`. -/
theorem test_V55_asl : after (machine false
    ⟨0x0200, 0xFD, 0x00, 0x00, 0x00, 0x34⟩ [(0x0200, 0x06), (0x0201, 0x10), (0x0010, 0xC1)]) [0x0010] =
    some (⟨0x0202, 0xFD, 0x00, 0x00, 0x00, 0xB5⟩, some (.cycles 5), [0x82]) := by decide

/-- V56, `ROR $0300`. -/
theorem test_V56_ror : after (machine false
    ⟨0x0200, 0xFD, 0x00, 0x00, 0x00, 0x35⟩ [(0x0200, 0x6E), (0x0201, 0x00), (0x0202, 0x03), (0x0300, 0x02)]) [0x0300] =
    some (⟨0x0203, 0xFD, 0x00, 0x00, 0x00, 0xB4⟩, some (.cycles 6), [0x81]) := by decide

/-- V57, `LSR $12FF,X`. -/
theorem test_V57_lsr : after (machine false
    ⟨0x0200, 0xFD, 0x00, 0x01, 0x00, 0x34⟩ [(0x0200, 0x5E), (0x0201, 0xFF), (0x0202, 0x12), (0x1300, 0xFF)]) [0x1300] =
    some (⟨0x0203, 0xFD, 0x00, 0x01, 0x00, 0x35⟩, some (.cycles 7), [0x7F]) := by decide

/-- V59, `CMP #$00 (A=0xFF)`. -/
theorem test_V59_cmp : after (machine false
    ⟨0x0200, 0xFD, 0xFF, 0x00, 0x00, 0x34⟩ [(0x0200, 0xC9), (0x0201, 0x00)]) [] =
    some (⟨0x0202, 0xFD, 0xFF, 0x00, 0x00, 0xB5⟩, some (.cycles 2), []) := by decide

/-- V61, `CMP $04F0,Y`. -/
theorem test_V61_cmp : after (machine false
    ⟨0x0200, 0xFD, 0x10, 0x00, 0x20, 0x34⟩ [(0x0200, 0xD9), (0x0201, 0xF0), (0x0202, 0x04), (0x0510, 0x20)]) [] =
    some (⟨0x0203, 0xFD, 0x10, 0x00, 0x20, 0xB4⟩, some (.cycles 5), []) := by decide

/-- V62, `CPX #$05`. -/
theorem test_V62_cpx : after (machine false
    ⟨0x0200, 0xFD, 0x00, 0x05, 0x00, 0x34⟩ [(0x0200, 0xE0), (0x0201, 0x05)]) [] =
    some (⟨0x0202, 0xFD, 0x00, 0x05, 0x00, 0x37⟩, some (.cycles 2), []) := by decide

/-- V63, `CPY #$10`. -/
theorem test_V63_cpy : after (machine false
    ⟨0x0200, 0xFD, 0x00, 0x00, 0x20, 0x34⟩ [(0x0200, 0xC0), (0x0201, 0x10)]) [] =
    some (⟨0x0202, 0xFD, 0x00, 0x00, 0x20, 0x35⟩, some (.cycles 2), []) := by decide

/-- V64, `BIT $10`. -/
theorem test_V64_bit : after (machine false
    ⟨0x0200, 0xFD, 0x00, 0x00, 0x00, 0x34⟩ [(0x0200, 0x24), (0x0201, 0x10), (0x0010, 0xC0)]) [] =
    some (⟨0x0202, 0xFD, 0x00, 0x00, 0x00, 0xF6⟩, some (.cycles 3), []) := by decide

/-- V65, `BIT $1234`. -/
theorem test_V65_bit : after (machine false
    ⟨0x0200, 0xFD, 0xFF, 0x00, 0x00, 0xF4⟩ [(0x0200, 0x2C), (0x0201, 0x34), (0x0202, 0x12), (0x1234, 0x3F)]) [] =
    some (⟨0x0203, 0xFD, 0xFF, 0x00, 0x00, 0x34⟩, some (.cycles 4), []) := by decide

/-- V66, `INC $10`. -/
theorem test_V66_inc : after (machine false
    ⟨0x0200, 0xFD, 0x00, 0x00, 0x00, 0x34⟩ [(0x0200, 0xE6), (0x0201, 0x10), (0x0010, 0xFF)]) [0x0010] =
    some (⟨0x0202, 0xFD, 0x00, 0x00, 0x00, 0x36⟩, some (.cycles 5), [0x00]) := by decide

/-- V67, `DEC $10`. -/
theorem test_V67_dec : after (machine false
    ⟨0x0200, 0xFD, 0x00, 0x00, 0x00, 0x34⟩ [(0x0200, 0xC6), (0x0201, 0x10), (0x0010, 0x00)]) [0x0010] =
    some (⟨0x0202, 0xFD, 0x00, 0x00, 0x00, 0xB4⟩, some (.cycles 5), [0xFF]) := by decide

/-- V68, `INC $12FF,X`. -/
theorem test_V68_inc : after (machine false
    ⟨0x0200, 0xFD, 0x00, 0x01, 0x00, 0x34⟩ [(0x0200, 0xFE), (0x0201, 0xFF), (0x0202, 0x12), (0x1300, 0x7F)]) [0x1300] =
    some (⟨0x0203, 0xFD, 0x00, 0x01, 0x00, 0xB4⟩, some (.cycles 7), [0x80]) := by decide

/-- V69, `INX`. -/
theorem test_V69_inx : after (machine false
    ⟨0x0200, 0xFD, 0x00, 0xFF, 0x00, 0x34⟩ [(0x0200, 0xE8)]) [] =
    some (⟨0x0201, 0xFD, 0x00, 0x00, 0x00, 0x36⟩, some (.cycles 2), []) := by decide

/-- V70, `DEX`. -/
theorem test_V70_dex : after (machine false
    ⟨0x0200, 0xFD, 0x00, 0x00, 0x00, 0x34⟩ [(0x0200, 0xCA)]) [] =
    some (⟨0x0201, 0xFD, 0x00, 0xFF, 0x00, 0xB4⟩, some (.cycles 2), []) := by decide

/-- V71, `INY`. -/
theorem test_V71_iny : after (machine false
    ⟨0x0200, 0xFD, 0x00, 0x00, 0x7F, 0x34⟩ [(0x0200, 0xC8)]) [] =
    some (⟨0x0201, 0xFD, 0x00, 0x00, 0x80, 0xB4⟩, some (.cycles 2), []) := by decide

/-- V72, `DEY`. -/
theorem test_V72_dey : after (machine false
    ⟨0x0200, 0xFD, 0x00, 0x00, 0x01, 0x34⟩ [(0x0200, 0x88)]) [] =
    some (⟨0x0201, 0xFD, 0x00, 0x00, 0x00, 0x36⟩, some (.cycles 2), []) := by decide

/-- V74, `JMP ($30FF)`. -/
theorem test_V74_jmp : after (machine false
    ⟨0x0200, 0xFD, 0x00, 0x00, 0x00, 0x34⟩ [(0x0200, 0x6C), (0x0201, 0xFF), (0x0202, 0x30), (0x30FF, 0x80), (0x3000, 0x50), (0x3100, 0x40)]) [] =
    some (⟨0x5080, 0xFD, 0x00, 0x00, 0x00, 0x34⟩, some (.cycles 5), []) := by decide

/-- V75, `JMP ($FFFF)`. -/
theorem test_V75_jmp : after (machine false
    ⟨0x0200, 0xFD, 0x00, 0x00, 0x00, 0x34⟩ [(0x0200, 0x6C), (0x0201, 0xFF), (0x0202, 0xFF), (0xFFFF, 0x34), (0xFF00, 0x12)]) [] =
    some (⟨0x1234, 0xFD, 0x00, 0x00, 0x00, 0x34⟩, some (.cycles 5), []) := by decide

/-- V76, `JSR $9010`. -/
theorem test_V76_jsr : after (machine false
    ⟨0x8000, 0xFD, 0x00, 0x00, 0x00, 0x34⟩ [(0x8000, 0x20), (0x8001, 0x10), (0x8002, 0x90)]) [0x01FD, 0x01FC] =
    some (⟨0x9010, 0xFB, 0x00, 0x00, 0x00, 0x34⟩, some (.cycles 6), [0x80, 0x02]) := by decide

/-- V77, `JSR $4000 (SP=0x00)`. -/
theorem test_V77_jsr : after (machine false
    ⟨0x0200, 0x00, 0x00, 0x00, 0x00, 0x34⟩ [(0x0200, 0x20), (0x0201, 0x00), (0x0202, 0x40)]) [0x0100, 0x01FF] =
    some (⟨0x4000, 0xFE, 0x00, 0x00, 0x00, 0x34⟩, some (.cycles 6), [0x02, 0x02]) := by decide

/-- V78, `RTS`. -/
theorem test_V78_rts : after (machine false
    ⟨0x0200, 0xFB, 0x00, 0x00, 0x00, 0x34⟩ [(0x0200, 0x60), (0x01FC, 0x02), (0x01FD, 0x80)]) [] =
    some (⟨0x8003, 0xFD, 0x00, 0x00, 0x00, 0x34⟩, some (.cycles 6), []) := by decide

/-- V79, `RTS (pop 0xFFFF)`. -/
theorem test_V79_rts : after (machine false
    ⟨0x0200, 0xFB, 0x00, 0x00, 0x00, 0x34⟩ [(0x0200, 0x60), (0x01FC, 0xFF), (0x01FD, 0xFF)]) [] =
    some (⟨0x0000, 0xFD, 0x00, 0x00, 0x00, 0x34⟩, some (.cycles 6), []) := by decide

/-- V80, `RTI`. -/
theorem test_V80_rti : after (machine false
    ⟨0x0200, 0xFA, 0x00, 0x00, 0x00, 0x34⟩ [(0x0200, 0x40), (0x01FB, 0xC3), (0x01FC, 0x03), (0x01FD, 0x80)]) [] =
    some (⟨0x8003, 0xFD, 0x00, 0x00, 0x00, 0xF3⟩, some (.cycles 6), []) := by decide

/-- V81, `BEQ +4 (Z=1)`. -/
theorem test_V81_beq : after (machine false
    ⟨0x80FB, 0xFD, 0x00, 0x00, 0x00, 0x36⟩ [(0x80FB, 0xF0), (0x80FC, 0x04)]) [] =
    some (⟨0x8101, 0xFD, 0x00, 0x00, 0x00, 0x36⟩, some (.cycles 4), []) := by decide

/-- V83, `BNE -6 (Z=0)`. -/
theorem test_V83_bne : after (machine false
    ⟨0x0208, 0xFD, 0x00, 0x00, 0x00, 0x34⟩ [(0x0208, 0xD0), (0x0209, 0xFA)]) [] =
    some (⟨0x0204, 0xFD, 0x00, 0x00, 0x00, 0x34⟩, some (.cycles 3), []) := by decide

/-- V84, `BPL +2 (N=0)`. -/
theorem test_V84_bpl : after (machine false
    ⟨0x0200, 0xFD, 0x00, 0x00, 0x00, 0x34⟩ [(0x0200, 0x10), (0x0201, 0x02)]) [] =
    some (⟨0x0204, 0xFD, 0x00, 0x00, 0x00, 0x34⟩, some (.cycles 3), []) := by decide

/-- V85, `BMI +2 (N=0)`. -/
theorem test_V85_bmi : after (machine false
    ⟨0x0200, 0xFD, 0x00, 0x00, 0x00, 0x34⟩ [(0x0200, 0x30), (0x0201, 0x02)]) [] =
    some (⟨0x0202, 0xFD, 0x00, 0x00, 0x00, 0x34⟩, some (.cycles 2), []) := by decide

/-- V86, `BVC -2 (V=0)`. -/
theorem test_V86_bvc : after (machine false
    ⟨0x0300, 0xFD, 0x00, 0x00, 0x00, 0x34⟩ [(0x0300, 0x50), (0x0301, 0xFE)]) [] =
    some (⟨0x0300, 0xFD, 0x00, 0x00, 0x00, 0x34⟩, some (.cycles 3), []) := by decide

/-- V87, `BVS -128 (V=1)`. -/
theorem test_V87_bvs : after (machine false
    ⟨0x0300, 0xFD, 0x00, 0x00, 0x00, 0x74⟩ [(0x0300, 0x70), (0x0301, 0x80)]) [] =
    some (⟨0x0282, 0xFD, 0x00, 0x00, 0x00, 0x74⟩, some (.cycles 4), []) := by decide

/-- V88, `BCC +127 (C=0)`. -/
theorem test_V88_bcc : after (machine false
    ⟨0x0300, 0xFD, 0x00, 0x00, 0x00, 0x34⟩ [(0x0300, 0x90), (0x0301, 0x7F)]) [] =
    some (⟨0x0381, 0xFD, 0x00, 0x00, 0x00, 0x34⟩, some (.cycles 3), []) := by decide

/-- V89, `BCS +16 (C=1)`. -/
theorem test_V89_bcs : after (machine false
    ⟨0xFFF0, 0xFD, 0x00, 0x00, 0x00, 0x35⟩ [(0xFFF0, 0xB0), (0xFFF1, 0x10)]) [] =
    some (⟨0x0002, 0xFD, 0x00, 0x00, 0x00, 0x35⟩, some (.cycles 4), []) := by decide

/-- V91, `CLC`. -/
theorem test_V91_clc : after (machine false
    ⟨0x0200, 0xFD, 0x00, 0x00, 0x00, 0x35⟩ [(0x0200, 0x18)]) [] =
    some (⟨0x0201, 0xFD, 0x00, 0x00, 0x00, 0x34⟩, some (.cycles 2), []) := by decide

/-- V92, `SEC`. -/
theorem test_V92_sec : after (machine false
    ⟨0x0200, 0xFD, 0x00, 0x00, 0x00, 0x34⟩ [(0x0200, 0x38)]) [] =
    some (⟨0x0201, 0xFD, 0x00, 0x00, 0x00, 0x35⟩, some (.cycles 2), []) := by decide

/-- V93, `CLI`. -/
theorem test_V93_cli : after (machine false
    ⟨0x0200, 0xFD, 0x00, 0x00, 0x00, 0x34⟩ [(0x0200, 0x58)]) [] =
    some (⟨0x0201, 0xFD, 0x00, 0x00, 0x00, 0x30⟩, some (.cycles 2), []) := by decide

/-- V94, `SEI`. -/
theorem test_V94_sei : after (machine false
    ⟨0x0200, 0xFD, 0x00, 0x00, 0x00, 0x30⟩ [(0x0200, 0x78)]) [] =
    some (⟨0x0201, 0xFD, 0x00, 0x00, 0x00, 0x34⟩, some (.cycles 2), []) := by decide

/-- V95, `CLD`. -/
theorem test_V95_cld : after (machine false
    ⟨0x0200, 0xFD, 0x00, 0x00, 0x00, 0x3C⟩ [(0x0200, 0xD8)]) [] =
    some (⟨0x0201, 0xFD, 0x00, 0x00, 0x00, 0x34⟩, some (.cycles 2), []) := by decide

/-- V96, `SED`. -/
theorem test_V96_sed : after (machine false
    ⟨0x0200, 0xFD, 0x00, 0x00, 0x00, 0x34⟩ [(0x0200, 0xF8)]) [] =
    some (⟨0x0201, 0xFD, 0x00, 0x00, 0x00, 0x3C⟩, some (.cycles 2), []) := by decide

/-- V97, `CLV`. -/
theorem test_V97_clv : after (machine false
    ⟨0x0200, 0xFD, 0x00, 0x00, 0x00, 0x74⟩ [(0x0200, 0xB8)]) [] =
    some (⟨0x0201, 0xFD, 0x00, 0x00, 0x00, 0x34⟩, some (.cycles 2), []) := by decide

/-- V98, `BRK`. -/
theorem test_V98_brk : after (machine false
    ⟨0x8001, 0xFD, 0x00, 0x00, 0x00, 0x30⟩ [(0x8001, 0x00), (0x8002, 0xEA), (0xFFFE, 0x00), (0xFFFF, 0x90)]) [0x01FD, 0x01FC, 0x01FB] =
    some (⟨0x9000, 0xFA, 0x00, 0x00, 0x00, 0x34⟩, some (.cycles 7), [0x80, 0x03, 0x30]) := by decide

/-- V99, `BRK (SP=0x01)`. -/
theorem test_V99_brk : after (machine false
    ⟨0x4000, 0x01, 0x00, 0x00, 0x00, 0xC3⟩ [(0x4000, 0x00), (0x4001, 0x00), (0xFFFE, 0x00), (0xFFFF, 0x90)]) [0x0101, 0x0100, 0x01FF] =
    some (⟨0x9000, 0xFE, 0x00, 0x00, 0x00, 0xC7⟩, some (.cycles 7), [0x40, 0x02, 0xF3]) := by decide

/-- V100, `NOP`. -/
theorem test_V100_nop : after (machine false
    ⟨0x8003, 0xFD, 0x00, 0x00, 0x00, 0x34⟩ [(0x8003, 0xEA)]) [] =
    some (⟨0x8004, 0xFD, 0x00, 0x00, 0x00, 0x34⟩, some (.cycles 2), []) := by decide

/-- V101, `??? (0x02, XXX)`: its cycles are free, so they are not checked. -/
theorem test_V101_xxx : (after (machine false
    ⟨0x0400, 0xFD, 0x00, 0x00, 0x00, 0x34⟩ [(0x0400, 0x02)]) []).map (·.1) =
    some ⟨0x0401, 0xFD, 0x00, 0x00, 0x00, 0x34⟩ := by decide

/-! ## Entries, the cycle view, other buses (95_test_vectors.md, sections 2 and 2.1; 20_memory.md R56) -/

/-- A core before `connect`. -/
def unconnected : State := { State.reset with bus := none }

/-- E1's memory at power-on: S1's vector and program. -/
def powerOn : List (Addr × Byte) := [(0xFFFC, 0x00), (0xFFFD, 0x80), (0x8000, 0xA9), (0x8001, 0x00)]

/-- `LDA #$00` in its last cycle: the literal at 0x8001 is still to be read. -/
def midInstruction : State :=
  { machine false ⟨0x8002, 0xFD, 0x50, 0x00, 0x00, 0x34⟩ powerOn with
    opcode := 0xA9, desc := some (descriptor 0xA9), remainingCycles := 1, inFlight := true, operandRef := .mem 0x8001 }

/-- E1 by `connect`: the state of S1 before its instruction. -/
theorem test_E1_connect : ((next? (hostCall (.connect .flatRam powerOn) unconnected)).map (shown [0x8000])) =
    some (⟨0x8000, 0xFD, 0x00, 0x00, 0x00, 0x34⟩, none, [0xA9]) := by decide

/-- S1: the instruction after the power-on RESET; its 10 cycles are the 8 of RESET and LDA's 2. -/
theorem test_S1 : after { machine false ⟨0x8000, 0xFD, 0x00, 0x00, 0x00, 0x34⟩ powerOn with remainingCycles := 8 } [] =
    some (⟨0x8002, 0xFD, 0x00, 0x00, 0x00, 0x36⟩, some (.cycles 10), []) := by decide

/-- S2: ADC with signed overflow. -/
theorem test_S2 : after (machine false ⟨0x8000, 0xFD, 0x50, 0x00, 0x00, 0x34⟩ [(0x8000, 0x69), (0x8001, 0x50)]) [] =
    some (⟨0x8002, 0xFD, 0xA0, 0x00, 0x00, 0xF4⟩, some (.cycles 2), []) := by decide

/-- S3: SBC across zero. -/
theorem test_S3 : after (machine false ⟨0x8000, 0xFD, 0x50, 0x00, 0x00, 0x35⟩ [(0x8000, 0xE9), (0x8001, 0xB0)]) [] =
    some (⟨0x8002, 0xFD, 0xA0, 0x00, 0x00, 0xF4⟩, some (.cycles 2), []) := by decide

/-- E1: `reset()` in the middle of an instruction. -/
theorem test_E1_reset : (next? (hostCall .reset midInstruction)).map (fun t => (getState t, t.remainingCycles, t.inFlight)) =
    some (⟨0x8000, 0xFD, 0x00, 0x00, 0x00, 0x34⟩, 8, false) := by decide

/-- E3: an IRQ that is taken. -/
theorem test_E3_irq : (next? (hostCall .irq
    (machine false ⟨0x8003, 0xFD, 0x00, 0x00, 0x00, 0x30⟩ [(0xFFFE, 0x00), (0xFFFF, 0x90)]))).map (fun t =>
      (shown [0x01FD, 0x01FC, 0x01FB] t, t.remainingCycles)) =
    some ((⟨0x9000, 0xFA, 0x00, 0x00, 0x00, 0x34⟩, none, [0x80, 0x03, 0x20]), 7) := by decide

/-- E4: an IRQ that is ignored. -/
theorem test_E4_irq : hostCall .irq (machine false ⟨0x8003, 0xFD, 0x00, 0x00, 0x00, 0x34⟩ []) =
    .next (machine false ⟨0x8003, 0xFD, 0x00, 0x00, 0x00, 0x34⟩ []) := rfl

/-- E5: an NMI that is taken while I = 1, with the stack wrapping. -/
theorem test_E5_nmi : (next? (hostCall .nmi
    (machine false ⟨0x1234, 0x02, 0x00, 0x00, 0x00, 0xB5⟩ [(0xFFFA, 0x00), (0xFFFB, 0xA0)]))).map (fun t =>
      (shown [0x0102, 0x0101, 0x0100] t, t.remainingCycles)) =
    some ((⟨0xA000, 0xFF, 0x00, 0x00, 0x00, 0xB5⟩, none, [0x12, 0x34, 0xA5]), 7) := by decide

/-- E7 to E10: the four refusals. -/
theorem test_E7_to_E10 :
    refusal? (hostCall .irq midInstruction) = some .midInstructionInterrupt ∧
    refusal? (hostCall .nmi midInstruction) = some .midInstructionInterrupt ∧
    refusal? (hostCall (.setState (getState State.reset)) midInstruction) = some .midInstructionSetState ∧
    refusal? (hostCall .runInstruction unconnected) = some .notConnected ∧
    refusal? (hostCall (.connect .flatRam []) State.reset) = some .alreadyConnected := by decide

/-- Section 2.1, the first `run_cycle`: the whole fetch, three reads, 3 cycles left. -/
theorem test_trace_first : (next? (runCycle
    (machine false ⟨0x0200, 0xFD, 0x00, 0x01, 0x00, 0x34⟩
      [(0x0200, 0xBD), (0x0201, 0xFF), (0x0202, 0x12), (0x1300, 0x77)]))).map (fun t =>
        ((t.pc, t.a, t.remainingCycles), (t.inFlight, t.pageCrossed, t.operandRef), t.busLog)) =
    some ((0x0203, 0x00, 3), (true, true, .mem 0x1300), [.read 0x0200 0xBD, .read 0x0201 0xFF, .read 0x0202 0x12]) := by
  decide

/-- Section 2.1, the fourth `run_cycle`: the operation's read, and the page-cross cycle added. -/
theorem test_trace_fourth : (next? (runCycle
    { machine false ⟨0x0203, 0xFD, 0x00, 0x01, 0x00, 0x34⟩ [(0x1300, 0x77)] with
      desc := some (descriptor 0xBD), opcode := 0xBD, remainingCycles := 1, inFlight := true, pageCrossed := true,
      operandRef := .mem 0x1300 })).map (fun t => ((t.pc, t.a, t.remainingCycles), t.inFlight, t.busLog)) =
    some ((0x0203, 0x77, 1), false, [.read 0x1300 0x77]) := by decide

/-- R56: the 2 KiB of `NESBus` are mirrored four times; an address where no device is routed reads 0 and drops a write. -/
theorem test_nesBus :
    busPeek { State.reset with bus := some (.nes []), mem := [(0x0005, 0x7F)] } 0x1805 = 0x7F ∧
    (busWrite { State.reset with bus := some (.nes []) } 0x0805 0x11).mem = [(0x0005, 0x11)] ∧
    busPeek { State.reset with bus := some (.nes []) } 0x4000 = 0x00 ∧
    busTakes { State.reset with bus := some (.nes []) } 0x4000 = false ∧
    (busWrite { State.reset with bus := some (.nes []) } 0x9000 0x11).mem = [] := by decide

/-- R101, log entry 2: a listed call is made and taken off the list. -/
theorem test_listedCall :
    (next? (step { State.reset with hostCalls := [.writeMemory 0x0010 0xAA, .runCycle] })).map (fun t =>
      (t.hostCalls, t.mem, t.reply)) = some ([.runCycle], [(0x0010, 0xAA)], some (.taken true)) := by decide

/-- R170's two examples. -/
theorem test_R170 : (adcDec 0x58 0x46 true).res = 0x05 ∧ (adcDec 0x58 0x46 true).c = true ∧
    (sbcDec 0x00 0x01 true).res = 0x99 ∧ (sbcDec 0x00 0x01 true).c = false := by decide

/-! ## What is no instruction -/

/-- One ill-formed term for each check of `Instr.wf`, and that `exec` refuses such a term. -/
theorem test_illFormed :
    (Instr.adc (.zpy 0)).wf = false ∧ (Instr.asl (.imm 0)).wf = false ∧ (Instr.bcc (.imm 0)).wf = false ∧
    (Instr.bit (.imm 0)).wf = false ∧ (Instr.cpx (.zpx 0)).wf = false ∧ (Instr.inc .acc).wf = false ∧
    (Instr.jmp (.abx 0)).wf = false ∧ (Instr.jsr (.ind 0)).wf = false ∧ (Instr.ldx (.zpx 0)).wf = false ∧
    (Instr.ldy (.zpy 0)).wf = false ∧ (Instr.sta (.imm 0)).wf = false ∧ (Instr.stx (.zpx 0)).wf = false ∧
    (Instr.sty (.zpy 0)).wf = false ∧ (Instr.sbcEB (.zp0 0)).wf = false ∧ (Instr.xxx 0xEA).wf = false ∧
    (Instr.xxx 0xEB).wf = false ∧ refusal? (exec (.sta (.imm 0)) State.reset) = some .notEncodable := by decide

/-- Lists that end too soon are refused by name. -/
theorem test_truncated : decode [] = .error .noOpcode ∧ decode [0xA9] = .error (.truncated 0xA9) ∧
    decode [0x4C, 0x34] = .error (.truncated 0x4C) := ⟨rfl, rfl, rfl⟩

/-! ## One opcode per constructor, from the listing of R88 and the formats of R82 -/

/-- The instruction at the head of a list of bytes, and how many bytes follow it. -/
def read? (bs : List Byte) : Option (Instr × Nat) :=
  match decode bs with
  | .ok (i, rest) => some (i, rest.length)
  | .error _ => none

/-- Loads, stores and transfers. -/
theorem test_decode_loadStore :
    read? [0xB1, 0x20] = some (.lda (.izy 0x20), 0) ∧ read? [0xB6, 0xFF] = some (.ldx (.zpy 0xFF), 0) ∧
    read? [0xBC, 0xFF, 0x12] = some (.ldy (.abx 0x12FF), 0) ∧ read? [0x81, 0x44, 0xEA] = some (.sta (.izx 0x44), 1) ∧
    read? [0x8E, 0x34, 0x12] = some (.stx (.abs 0x1234), 0) ∧ read? [0x94, 0x10] = some (.sty (.zpx 0x10), 0) ∧
    read? [0xAA] = some (.tax, 0) ∧ read? [0xA8] = some (.tay, 0) ∧ read? [0xBA] = some (.tsx, 0) ∧
    read? [0x8A] = some (.txa, 0) ∧ read? [0x9A] = some (.txs, 0) ∧ read? [0x98] = some (.tya, 0) := by decide

/-- The stack. -/
theorem test_decode_stack : read? [0x48] = some (.pha, 0) ∧ read? [0x08] = some (.php, 0) ∧
    read? [0x68] = some (.pla, 0) ∧ read? [0x28] = some (.plp, 0) := by decide

/-- Logic and arithmetic. -/
theorem test_decode_arith :
    read? [0x69, 0x50] = some (.adc (.imm 0x50), 0) ∧ read? [0xF9, 0x01, 0x80] = some (.sbc (.aby 0x8001), 0) ∧
    read? [0xEB, 0x03] = some (.sbcEB (.imm 0x03), 0) ∧ read? [0x25, 0x7F] = some (.and (.zp0 0x7F), 0) ∧
    read? [0x1D, 0x00, 0xFF] = some (.ora (.abx 0xFF00), 0) ∧ read? [0x49, 0xFF] = some (.eor (.imm 0xFF), 0) := by decide

/-- Shifts and rotates. -/
theorem test_decode_shift :
    read? [0x0A, 0x00] = some (.asl .acc, 1) ∧ read? [0x5E, 0xFF, 0x12] = some (.lsr (.abx 0x12FF), 0) ∧
    read? [0x26, 0x10] = some (.rol (.zp0 0x10), 0) ∧ read? [0x6E, 0x00, 0x03] = some (.ror (.abs 0x0300), 0) := by decide

/-- Compares, BIT, increments and decrements. -/
theorem test_decode_compare :
    read? [0xD9, 0xF0, 0x04] = some (.cmp (.aby 0x04F0), 0) ∧ read? [0xE0, 0x05] = some (.cpx (.imm 0x05), 0) ∧
    read? [0xCC, 0x02, 0x01] = some (.cpy (.abs 0x0102), 0) ∧ read? [0x24, 0x10] = some (.bit (.zp0 0x10), 0) ∧
    read? [0xF6, 0x20] = some (.inc (.zpx 0x20), 0) ∧ read? [0xCE, 0x34, 0x12] = some (.dec (.abs 0x1234), 0) ∧
    read? [0xE8] = some (.inx, 0) ∧ read? [0xC8] = some (.iny, 0) ∧ read? [0xCA] = some (.dex, 0) ∧
    read? [0x88] = some (.dey, 0) := by decide

/-- Jumps, calls, returns and branches. -/
theorem test_decode_control :
    read? [0x6C, 0xFF, 0x30] = some (.jmp (.ind 0x30FF), 0) ∧ read? [0x20, 0x10, 0x90] = some (.jsr (.abs 0x9010), 0) ∧
    read? [0x60] = some (.rts, 0) ∧ read? [0x40] = some (.rti, 0) ∧ read? [0x10, 0xF8] = some (.bpl (.rel 0xF8), 0) ∧
    read? [0x30, 0x02] = some (.bmi (.rel 0x02), 0) ∧ read? [0x50, 0xFE] = some (.bvc (.rel 0xFE), 0) ∧
    read? [0x70, 0x80] = some (.bvs (.rel 0x80), 0) ∧ read? [0x90, 0x7F] = some (.bcc (.rel 0x7F), 0) ∧
    read? [0xB0, 0x10] = some (.bcs (.rel 0x10), 0) ∧ read? [0xD0, 0xFA] = some (.bne (.rel 0xFA), 0) ∧
    read? [0xF0, 0x04] = some (.beq (.rel 0x04), 0) := by decide

/-- Flags, BRK, NOP and an XXX opcode. -/
theorem test_decode_system :
    read? [0x18] = some (.clc, 0) ∧ read? [0x38] = some (.sec, 0) ∧ read? [0x58] = some (.cli, 0) ∧
    read? [0x78] = some (.sei, 0) ∧ read? [0xD8] = some (.cld, 0) ∧ read? [0xF8] = some (.sed, 0) ∧
    read? [0xB8] = some (.clv, 0) ∧ read? [0x00, 0xEA] = some (.brk, 1) ∧ read? [0xEA] = some (.nop, 0) ∧
    read? [0x02] = some (.xxx 0x02, 0) ∧ read? [0xFF] = some (.xxx 0xFF, 0) := by decide

/-- The table's words: an opcode alone, with operand bytes of zeros, and placed at the PC for the next step. -/
theorem test_tableWords :
    decodeTableWord 8 0x6C = some (.jmp (.ind 0)) ∧ decodeTableWord 24 0x3412AD = some (.lda (.abs 0x3412)) ∧
    (next? (step (State.reset.withFetchWord 8 0xE8))).map (·.x) = some 0x01 ∧
    (next? (step (State.reset.withFetchWord 8 0x02))).map (·.pc) = some 0x0001 := by decide

/-! ## Witnesses: states and operands that meet the hypotheses of each statement that has some -/

/-- The vectors' default registers at 0x0200. -/
def plain (cells : List (Addr × Byte)) : State := machine false ⟨0x0200, 0xFD, 0x00, 0x00, 0x00, 0x34⟩ cells

/-- Where a result is a next state, there is one. -/
theorem next_of_isSome {r : CallResult} (h : (next? r).isSome = true) : ∃ t, r = .next t := by
  cases r with
  | next t => exact ⟨t, rfl⟩
  | fault _ => cases h
  | refused _ => cases h

theorem witness_EncodedInstructionDecodesToItself :
    Instr.nop.wf = true ∧ (Instr.asl .acc).wf = true ∧ (Instr.lda (.imm 0xFF)).wf = true ∧
    (Instr.jmp (.ind 0xFFFF)).wf = true ∧ (Instr.sbcEB (.imm 0x00)).wf = true ∧ (Instr.xxx 0x02).wf = true := by decide

theorem witness_DecodedBytesEncodeBack : decode [0x6C, 0xFF, 0xFF, 0x00] = .ok (.jmp (.ind 0xFFFF), [0x00]) := rfl

theorem witness_LengthIsFixedByOpcode : (0x02 : Byte) ∈ undocumented ∧ (0xFF : Byte) ∈ undocumented := by decide

theorem witness_ImpliedAccumulatorImmediateModes :
    (descriptor (peekAt 0 (plain [(0x0200, 0xEA)]) 0x0200)).mode = .imp ∧
    (descriptor (peekAt 0 (plain [(0x0200, 0x0A)]) 0x0200)).mode = .acc ∧
    (descriptor (peekAt 0 (plain [(0x0200, 0xA9)]) 0x0200)).mode = .imm := by decide

theorem witness_ZeroPageModes :
    (descriptor (peekAt 0 (plain [(0x0200, 0xA5)]) 0x0200)).mode = .zp0 ∧
    (descriptor (peekAt 0 (plain [(0x0200, 0xB5)]) 0x0200)).mode = .zpx ∧
    (descriptor (peekAt 0 (plain [(0x0200, 0xB6)]) 0x0200)).mode = .zpy := by decide

theorem witness_RelativeMode :
    (descriptor (peekAt 0 (plain [(0x0200, 0xF0), (0x0201, 0x80)]) 0x0200)).mode = .rel := by decide

theorem witness_AbsoluteModes :
    (0xFFFF : Nat) = (peekAt 2 (plain [(0x0201, 0xFF), (0x0202, 0xFF)]) 0x0202).toNat * 256 +
      (peekAt 1 (plain [(0x0201, 0xFF), (0x0202, 0xFF)]) 0x0201).toNat ∧
    (descriptor (peekAt 0 (plain [(0x0200, 0xAD), (0x0201, 0xFF), (0x0202, 0xFF)]) 0x0200)).mode = .abs ∧
    (descriptor (peekAt 0 (plain [(0x0200, 0xBD), (0x0201, 0xFF), (0x0202, 0xFF)]) 0x0200)).mode = .abx ∧
    (descriptor (peekAt 0 (plain [(0x0200, 0xB9), (0x0201, 0xFF), (0x0202, 0xFF)]) 0x0200)).mode = .aby := by decide

theorem witness_IndirectModeStaysInPage :
    (descriptor (peekAt 0 (plain [(0x0200, 0x6C), (0x0201, 0xFF), (0x0202, 0x30)]) 0x0200)).mode = .ind ∧
    (0x30FF : Addr).toNat = (peekAt 2 (plain [(0x0200, 0x6C), (0x0201, 0xFF), (0x0202, 0x30)]) 0x0202).toNat * 256 +
      (peekAt 1 (plain [(0x0200, 0x6C), (0x0201, 0xFF), (0x0202, 0x30)]) 0x0201).toNat ∧
    (0x3000 : Addr).toNat =
      (if (0x30FF : Addr).toNat % 256 = 0xFF then (0x30FF : Addr).toNat - 0xFF else (0x30FF : Addr).toNat + 1) ∧
    (0x30FF : Addr).toNat =
      (if (0x30FE : Addr).toNat % 256 = 0xFF then (0x30FE : Addr).toNat - 0xFF else (0x30FE : Addr).toNat + 1) := by decide

theorem witness_ZeroPagePointerModes :
    0xFF = (peekAt 1 (plain [(0x0200, 0xA1), (0x0201, 0xFF)]) 0x0201).toNat ∧
    (0x00FF : Addr).toNat = (0xFF + (plain []).x.toNat) % 256 ∧ (0x0000 : Addr).toNat = (0xFF + (plain []).x.toNat + 1) % 256 ∧
    (0x00FF : Addr).toNat = 0xFF ∧ (0x0000 : Addr).toNat = (0xFF + 1) % 256 ∧
    (descriptor (peekAt 0 (plain [(0x0200, 0xA1), (0x0201, 0xFF)]) 0x0200)).mode = .izx ∧
    (descriptor (peekAt 0 (plain [(0x0200, 0xB1), (0x0201, 0xFF)]) 0x0200)).mode = .izy := by decide

theorem witness_OperandReferenceOfEveryForm :
    (Instr.lda (.abs 0x1234)).wf = true ∧ (atOperation (.lda (.abs 0x1234)) (plain [])).operandRef = .mem 0x1234 ∧
    Instr.nop.wf = true ∧ (atOperation .nop (plain [])).operandRef = .regA ∧
    (Instr.lda (.izy 0x20)).wf = true ∧
    (atOperation (.lda (.izy 0x20)) (plain [(0x0020, 0xF8), (0x0021, 0x04)])).operandRef = .mem 0x04F8 ∧
    (Instr.lda (.abx 0xFFFF)).wf = true ∧ (atOperation (.lda (.abx 0xFFFF)) { plain [] with x := 0x01 }).pageCrossed = true ∧
    (atOperation (.lda (.abx 0xFFFF)) (plain [])).pageCrossed = false := by decide

theorem witness_LoadsPutTheOperandIntoTheRegister :
    (Instr.lda (.izy 0xFF)).wf = true ∧ (Instr.ldx (.zpy 0xFF)).wf = true ∧ (Instr.ldy (.abx 0xFFFF)).wf = true := by decide

theorem witness_StoresWriteTheRegister :
    memWf (plain []).bus (plain []).mem = true ∧ (Instr.sta (.izy 0xFF)).wf = true ∧ (Instr.stx (.zpy 0xFF)).wf = true ∧
    (Instr.sty (.abs 0xFFFF)).wf = true := by decide

theorem witness_StackInstructionsPushAndPull :
    memWf { plain [(0x01FD, 0x80)] with sp := 0x00 }.bus { plain [(0x01FD, 0x80)] with sp := 0x00 }.mem = true := by decide

theorem witness_PushThenPopRestores :
    memWf { plain [] with sp := 0x00 }.bus { plain [] with sp := 0x00 }.mem = true ∧
    backing { plain [] with sp := 0x00 }.bus (stackAddr 0x00) = some 0x0100 ∧
    (push 0x42 { plain [] with sp := 0x00 }).bus = { plain [] with sp := 0x00 }.bus ∧
    backing (some (.nes [])) (stackAddr 0xFF) = some 0x01FF := by decide

theorem witness_LogicInstructions :
    (Instr.and (.izx 0xFF)).wf = true ∧ (Instr.ora (.imm 0x80)).wf = true ∧ (Instr.eor (.aby 0xFFFF)).wf = true := by decide

theorem witness_AddAndSubtractInstructions :
    (Instr.adc (.imm 0x46)).wf = true ∧ (Instr.sbc (.imm 0x01)).wf = true ∧ ¬((plain []).cfg.decimalMode = true) ∧
    (machine true ⟨0x0202, 0xFD, 0x58, 0x00, 0x00, 0x3D⟩ [(0x0201, 0x46)]).cfg.decimalMode = true ∧
    flagD (machine true ⟨0x0202, 0xFD, 0x58, 0x00, 0x00, 0x3D⟩ [(0x0201, 0x46)]).p = true ∧
    (⟨0x05, true, false, true, true⟩ : AdderResult) =
      adcDec 0x58 (operandByte (.adc (.imm 0x46)) (machine true ⟨0x0202, 0xFD, 0x58, 0x00, 0x00, 0x3D⟩ [(0x0201, 0x46)]))
        true := by decide

/-- `adc_dec(0x58, 0x46, 1)` and `sbc_dec(0x00, 0x01, 1)` of R170, and the digits 99 and 00. -/
theorem witness_DecimalAdditionAndSubtraction :
    ((15 : Nat) = (0x58 : Byte).toNat % 16 + (0x46 : Byte).toNat % 16 + true.toNat ∧
      (21 : Nat) = (if (10 : Nat) ≤ 15 then (15 + 6) % 16 + 16 else 15) ∧
      (165 : Nat) = (0x58 : Byte).toNat / 16 * 16 + (0x46 : Byte).toNat / 16 * 16 + 21 ∧
      (261 : Nat) = (if (0xA0 : Nat) ≤ 165 then 165 + 0x60 else 165) ∧
      (165 : Int) = ((0x58 : Byte) &&& 0xF0).toInt + ((0x46 : Byte) &&& 0xF0).toInt + ((21 : Nat) : Int)) ∧
    ((-1 : Int) = (((0x00 : Byte).toNat % 16 : Nat) : Int) - (((0x01 : Byte).toNat % 16 : Nat) : Int) + (true.toNat : Int) - 1 ∧
      (-7 : Int) = (if (-1 : Int) < 0 then (-1 - 6) % 16 - 16 else -1) ∧
      (-7 : Int) = (((0x00 : Byte).toNat / 16 * 16 : Nat) : Int) - (((0x01 : Byte).toNat / 16 * 16 : Nat) : Int) + -7 ∧
      (-103 : Int) = (if (-7 : Int) < 0 then -7 - 0x60 else -7)) ∧
    (9 < 10 ∧ 0 < 10 ∧ (0x99 : Byte).toNat = 16 * 9 + 9 ∧ (0x00 : Byte).toNat = 16 * 0 + 0) := by decide

theorem witness_ResultAndCompareFlags : (0 ≠ 1 ∧ 0 ≠ 7) ∧ (6 ≠ 0 ∧ 6 ≠ 1 ∧ 6 ≠ 7) := by decide

theorem witness_PushedAndPulledStatus : 0 < 8 ∧ 7 < 8 := by decide

theorem witness_ShiftsAndRotates :
    memWf (plain [(0x0010, 0xC1)]).bus (plain [(0x0010, 0xC1)]).mem = true ∧ (Instr.asl (.zp0 0x10)).wf = true ∧
    (0x82 : Byte) = operandByte (.asl (.zp0 0x10)) (plain [(0x0010, 0xC1)]) <<< 1 ∧ (Instr.lsr .acc).wf = true ∧
    (0x00 : Byte) = operandByte (.lsr .acc) (plain []) >>> 1 ∧ (Instr.rol (.abx 0xFFFF)).wf = true ∧
    (0x00 : Byte) = operandByte (.rol (.abx 0xFFFF)) (plain []) <<< 1 ||| (if flagC (plain []).p then 0x01 else 0x00) ∧
    (Instr.ror (.zpx 0xFF)).wf = true ∧
    (0x00 : Byte) = operandByte (.ror (.zpx 0xFF)) (plain []) >>> 1 ||| (if flagC (plain []).p then 0x80 else 0x00) := by
  decide

theorem witness_CompareInstructions :
    (Instr.cmp (.izy 0xFF)).wf = true ∧ (Instr.cpx (.abs 0xFFFF)).wf = true ∧ (Instr.cpy (.imm 0x10)).wf = true := by decide

theorem witness_BitTestInstruction :
    (Instr.bit (.zp0 0x10)).wf = true ∧ (0xC0 : Byte) = operandByte (.bit (.zp0 0x10)) (plain [(0x0010, 0xC0)]) ∧
    ∀ k, k < 8 → (0xF6 : Byte).getLsbD k =
      (if k = 1 then decide ((plain [(0x0010, 0xC0)]).a &&& (0xC0 : Byte) = 0) else if k = 6 then (0xC0 : Byte).getLsbD 6
        else if k = 7 then (0xC0 : Byte).getLsbD 7 else (plain [(0x0010, 0xC0)]).p.getLsbD k) := by decide

theorem witness_IncrementAndDecrementMemory :
    memWf (plain [(0x0010, 0xFF)]).bus (plain [(0x0010, 0xFF)]).mem = true ∧ (Instr.inc (.zp0 0x10)).wf = true ∧
    (Instr.dec (.abx 0xFFFF)).wf = true := by decide

theorem witness_JumpAndCall : memWf { plain [] with sp := 0x00 }.bus { plain [] with sp := 0x00 }.mem = true := by decide

theorem witness_ReturnUndoesCall : ∃ t, exec (.jsr (.abs 0x9010)) (plain []) = .next t ∧ t.bus = some .flatRam ∧
    memWf (plain []).bus (plain []).mem = true ∧ (plain []).bus = some .flatRam :=
  ⟨_, exec_of_wf rfl _, rfl, rfl, rfl⟩

theorem witness_BranchInstructions :
    2 = (if (BitVec.ofInt 16 ((0xFFF2 : Addr).toNat + (0x10 : Byte).toInt)).toNat / 256 = (0xFFF2 : Addr).toNat / 256
      then 1 else 2) ∧
    1 = (if (BitVec.ofInt 16 ((0x0302 : Addr).toNat + (0x7F : Byte).toInt)).toNat / 256 = (0x0302 : Addr).toNat / 256
      then 1 else 2) ∧
    (if flagZ (plain []).p then getState (plain []) else getState (plain [])) = getState (plain []) := by decide

theorem witness_BreakEntersTheHandler :
    memWf { plain [(0xFFFF, 0x90)] with sp := 0x01 }.bus { plain [(0xFFFF, 0x90)] with sp := 0x01 }.mem = true := by decide

theorem witness_NoOperationInstructions : (0x02 : Byte) ∈ undocumented ∧ (0xFF : Byte) ∈ undocumented := by decide

theorem witness_InterruptsAtABoundary :
    Connected (plain []) ∧ (plain []).inFlight = false ∧ memWf (plain []).bus (plain []).mem = true ∧
    flagI (plain []).p = true ∧ flagI { plain [] with p := 0x30 }.p = false := by decide

theorem witness_ReturnUndoesEntry :
    memWf { plain [] with p := 0x30 }.bus { plain [] with p := 0x30 }.mem = true ∧
    { plain [] with p := 0x30 }.bus = some .flatRam ∧
    (∃ t, flagI { plain [] with p := 0x30 }.p = false ∧ hostCall .irq { plain [] with p := 0x30 } = .next t ∧
      t.bus = some .flatRam) ∧
    (∃ t, hostCall .nmi { plain [] with p := 0x30 } = .next t ∧ t.bus = some .flatRam) ∧
    (∃ t, exec .brk { plain [] with p := 0x30 } = .next t ∧ t.bus = some .flatRam) :=
  ⟨rfl, rfl, ⟨_, rfl, rfl, rfl⟩, ⟨_, rfl, rfl⟩, ⟨_, exec_of_wf rfl _, rfl⟩⟩

theorem witness_ResetLeavesTheResetValues : Connected midInstruction ∧ midInstruction.bus ≠ some .other := by decide

theorem witness_ConnectPerformsPowerOnReset :
    unconnected.bus = none ∧ Bus.nes [(0x2000, 0x3FFF)] ≠ .other ∧ Connected State.reset := by decide

theorem witness_ResetStateIsPowerOnState : unconnected.bus = none := rfl

theorem witness_CallsThatAreRefused :
    (unconnected.bus = none ∧ ∀ b l, HostCall.nmi ≠ .connect b l) ∧ (Connected midInstruction ∧ midInstruction.inFlight = true) ∧
    (Connected midInstruction ∧ Coherent midInstruction ∧ (∀ b l, HostCall.reset ≠ .connect b l) ∧
      (∀ r, HostCall.reset ≠ .setState r) ∧ HostCall.reset ≠ .irq ∧ HostCall.reset ≠ .nmi) ∧
    (Connected State.reset ∧ Coherent State.reset ∧ (∀ b l, HostCall.nmi ≠ .connect b l) ∧ State.reset.inFlight ≠ true) := by
  refine ⟨⟨rfl, by simp⟩, by decide, ⟨by decide, by decide, by simp, by simp, by simp, by simp⟩, by decide, by decide,
    by simp, by decide⟩

theorem witness_SnapshotsAndMemoryCalls :
    Connected (plain []) ∧ (plain []).inFlight = false ∧ memWf (plain []).bus (plain []).mem = true ∧
    (plain []).bus = some .flatRam ∧ Connected { plain [] with bus := some .other } ∧
    { plain [] with bus := some (.nes [(0x2000, 0x3FFF)]) }.bus = some (.nes [(0x2000, 0x3FFF)]) ∧
    (0x1FFF : Addr).toNat ≤ 0x1FFF ∧ ¬(0x2000 : Addr).toNat ≤ 0x1FFF ∧ 0x8000 ≤ (0x8000 : Addr).toNat ∧
    (∀ q ∈ [((0x2000 : Addr), (0x3FFF : Addr))], (0x4000 : Addr).toNat < q.1.toNat ∨ q.2.toNat < (0x4000 : Addr).toNat) ∧
    (∃ q ∈ [((0x2000 : Addr), (0x3FFF : Addr))], q.1.toNat ≤ (0x3FFF : Addr).toNat ∧ (0x3FFF : Addr).toNat ≤ q.2.toNat) :=
  ⟨rfl, rfl, rfl, rfl, rfl, rfl, by simp, by simp, by simp, by simp, by simp⟩

theorem witness_OneClockOfTheCore :
    ((plain []).inFlight = false ∧ (plain []).remainingCycles = 0) ∧
    (State.reset.inFlight = false ∧ 1 ≤ State.reset.remainingCycles) ∧
    ({ midInstruction with remainingCycles := 2 }.inFlight = true ∧
      2 ≤ { midInstruction with remainingCycles := 2 }.remainingCycles) ∧
    (midInstruction.inFlight = true ∧ midInstruction.remainingCycles ≤ 1 ∧
      midInstruction.desc = some (descriptor 0xA9)) := by decide

theorem witness_InstructionStepIsTheCycleLoop : Coherent State.reset ∧ Coherent midInstruction := by decide

theorem witness_HostWriteReachesPendingOperand :
    midInstruction.bus = some .flatRam ∧ memWf midInstruction.bus midInstruction.mem = true ∧
    midInstruction.inFlight = true ∧ midInstruction.desc = some (descriptor 0xA9) ∧ midInstruction.remainingCycles = 1 ∧
    midInstruction.operandRef = .mem 0x8001 ∧
    ∃ t, hostCall (.writeMemory 0x8001 0x42) midInstruction = .next t ∧ ∃ u, hostCall .runCycle t = .next u :=
  ⟨rfl, by decide, rfl, rfl, rfl, rfl, _, rfl, next_of_isSome (by decide)⟩

theorem witness_StepRunsTheDecodedInstruction :
    Connected (plain [(0x0200, 0xA9)]) ∧ (plain [(0x0200, 0xA9)]).hostCalls = [] ∧
    (plain [(0x0200, 0xA9)]).inFlight = false ∧
    decode [peekAt 0 (plain [(0x0200, 0xA9)]) 0x0200, peekAt 1 (plain [(0x0200, 0xA9)]) 0x0201,
      peekAt 2 (plain [(0x0200, 0xA9)]) 0x0202] = .ok (.lda (.imm 0x00), [0x00]) := ⟨rfl, rfl, rfl, rfl⟩

theorem witness_StepMakesTheListedCall : { plain [] with hostCalls := [.nmi, .runCycle] }.hostCalls = .nmi :: [.runCycle] := rfl

theorem witness_OperationsMakeTheListedTransactions :
    (∃ t, exec (.inc (.zp0 0x10)) (plain []) = .next t) ∧ ∃ t, exec .brk (plain []) = .next t :=
  ⟨⟨_, exec_of_wf rfl _⟩, ⟨_, exec_of_wf rfl _⟩⟩

theorem witness_RegisterWriters :
    (∃ t, exec .nop (plain []) = .next t) ∧
    Instr.nop.operation ∉ [Operation.lda, .txa, .tya, .pla, .and, .ora, .eor, .adc, .sbc] ∧
    ¬(Instr.nop.operation ∈ [Operation.asl, .lsr, .rol, .ror] ∧ Instr.nop.operand.mode = .acc) ∧
    Instr.nop.operation ∉ [Operation.ldx, .tax, .tsx, .inx, .dex] ∧
    Instr.nop.operation ∉ [Operation.ldy, .tay, .iny, .dey] ∧
    Instr.nop.operation ∉ [Operation.txs, .pha, .php, .pla, .plp, .jsr, .rts, .rti, .brk] :=
  ⟨⟨_, exec_of_wf rfl _⟩, by decide, by decide, by decide, by decide, by decide⟩

theorem witness_FlagWriters :
    (∃ t, exec .nop (plain []) = .next t) ∧
    Instr.nop.operation ∉ [Operation.adc, .sbc, .cmp, .cpx, .cpy, .asl, .lsr, .rol, .ror, .clc, .sec, .plp, .rti] ∧
    Instr.nop.operation ∉ [Operation.lda, .ldx, .ldy, .tax, .tay, .tsx, .txa, .tya, .pla, .and, .ora, .eor, .asl, .lsr,
      .rol, .ror, .inc, .dec, .inx, .iny, .dex, .dey, .adc, .sbc, .cmp, .cpx, .cpy, .bit, .plp, .rti] ∧
    Instr.nop.operation ∉ [Operation.sei, .cli, .brk, .plp, .rti] ∧
    Instr.nop.operation ∉ [Operation.sed, .cld, .plp, .rti] ∧
    Instr.nop.operation ∉ [Operation.adc, .sbc, .bit, .clv, .plp, .rti] :=
  ⟨⟨_, exec_of_wf rfl _⟩, by decide, by decide, by decide, by decide, by decide⟩

theorem witness_LiveBreakAndUnusedBitsStay :
    (∃ t, step { plain [] with hostCalls := [.nmi] } = .next t) ∧
    ∀ c cs, { plain [] with hostCalls := [.nmi] }.hostCalls = c :: cs →
      c ≠ .reset ∧ (∀ r, c ≠ .setState r) ∧ ∀ b l, c ≠ .connect b l := by
  refine ⟨next_of_isSome (by decide), ?_⟩
  intro c cs h
  cases h
  simp

theorem witness_ParametersNeverChange : (∃ t, step (plain []) = .next t) ∧ Connected (plain []) :=
  ⟨next_of_isSome (by decide), rfl⟩

theorem witness_StepKeepsInvariant :
    (Coherent State.reset ∧ ∃ t, step State.reset = .next t) ∧ Coherent midInstruction ∧ ∃ t, step midInstruction = .next t :=
  ⟨⟨by decide, next_of_isSome (by decide)⟩, by decide, next_of_isSome (by decide)⟩

theorem witness_CoreNeverStops : Coherent midInstruction ∧ Connected midInstruction ∧ midInstruction.hostCalls = [] := by decide

theorem witness_DocumentedInstructionCycles :
    (∃ t, exec (.lda (.abx 0x12FF)) { plain [] with x := 0x01 } = .next t) ∧ (Instr.lda (.abx 0x12FF)).operation ≠ .xxx ∧
    Connected State.reset ∧ State.reset.hostCalls = [] ∧ State.reset.inFlight = false ∧
    (descriptor (peekAt 0 State.reset State.reset.pc)).operation ≠ .xxx :=
  ⟨⟨_, exec_of_wf rfl _⟩, by decide, rfl, rfl, rfl, by decide⟩

end Sys2Proof.Tests
end

section
/-! SUPPORT. Every bit of P after a write of a flag, and the flags of a result and of a comparison (00_scope.md R10,
46_compare_bit_incdec.md R183). -/

namespace Sys2Proof.Machine

/-- A write of one flag sets the bit of its mask and keeps every other bit (R25). -/
theorem getLsbD_putFlag {mask : Byte} {i : Nat} (hm : mask = BitVec.twoPow 8 i) (hi : i < 8) (b : Bool) (p : Byte)
    (k : Nat) : (putFlag mask b p).getLsbD k = if k = i then b else p.getLsbD k := by
  subst hm
  by_cases hk : k = i
  · subst hk
    cases b <;> simp [putFlag, hi]
  · have hne : i ≠ k := Ne.symm hk
    cases b
    · simpa [putFlag, hk, hne] using fun h => BitVec.lt_of_getLsbD h
    · simp [putFlag, hk, hne]

theorem getLsbD_putC (b : Bool) (p : Byte) (k : Nat) : (putC b p).getLsbD k = if k = 0 then b else p.getLsbD k :=
  getLsbD_putFlag (by decide) (by decide) b p k

theorem getLsbD_putZ (b : Bool) (p : Byte) (k : Nat) : (putZ b p).getLsbD k = if k = 1 then b else p.getLsbD k :=
  getLsbD_putFlag (by decide) (by decide) b p k

theorem getLsbD_putN (b : Bool) (p : Byte) (k : Nat) : (putN b p).getLsbD k = if k = 7 then b else p.getLsbD k :=
  getLsbD_putFlag (by decide) (by decide) b p k

/-- Z and N are the only bits that `setZN` writes (R10). -/
theorem getLsbD_setZN_of_ne (v p : Byte) {k : Nat} (hz : k ≠ 1) (hn : k ≠ 7) : (setZN v p).getLsbD k = p.getLsbD k := by
  simp [setZN, getLsbD_putZ, getLsbD_putN, hz, hn]

/-- C, Z and N are the only bits that a comparison writes (R183). -/
theorem getLsbD_compareP_of_ne (r m p : Byte) {k : Nat} (hc : k ≠ 0) (hz : k ≠ 1) (hn : k ≠ 7) :
    (compareP r m p).getLsbD k = p.getLsbD k := by
  simp [compareP, getLsbD_putC, getLsbD_putZ, getLsbD_putN, hc, hz, hn]

/-- Bit 7 of a difference of bytes, in numbers: the difference modulo 256 is at least 128. -/
theorem getLsbD_seven_sub (r m : Byte) : (r - m).getLsbD 7 = decide (128 ≤ (r.toNat + 256 - m.toNat) % 256) := by
  have hm : m.toNat < 256 := m.isLt
  have hsub : (r - m).toNat = (r.toNat + 256 - m.toNat) % 256 := by
    rw [BitVec.toNat_sub]
    omega
  calc (r - m).getLsbD 7 = (r - m).msb := (BitVec.msb_eq_getLsbD_last (r - m)).symm
    _ = decide (128 ≤ (r - m).toNat) := BitVec.msb_eq_decide (r - m)
    _ = decide (128 ≤ (r.toNat + 256 - m.toNat) % 256) := by rw [hsub]

end Sys2Proof.Machine

namespace Sys2Proof.Proofs
open Sys2Proof.Machine

/-- Settles O25: each flag by the law of the write that sets it last, every other bit by the bits of the writes. -/
theorem resultAndCompareFlags : Obligations.ResultAndCompareFlags := by
  unfold Obligations.ResultAndCompareFlags
  intro v r m p k
  refine ⟨?_, ?_, getLsbD_setZN_of_ne v p, ?_, ?_, ?_, getLsbD_compareP_of_ne r m p⟩
  · simp [setZN, beq_eq_decide]
  · simp [setZN]
  · simp [compareP]
  · simp [compareP, beq_eq_decide]
  · rw [← getLsbD_seven_sub]
    simp [compareP]

end Sys2Proof.Proofs
end

section
/-! SUPPORT. What the state after a call that answers can be, said once per call (40_fetch_execute.md R101 to R116). -/

namespace Sys2Proof.Machine

/-- A `connect` that answers was made before any other, and ends in the power-on RESET (R102, R113). -/
theorem callConnect_eq_next {b : Bus} {memInit : List (Addr × Byte)} {s t : State}
    (h : callConnect b memInit s = .next t) :
    s.bus = none ∧ t = resetEntry { s with
      bus := some b
      mem := memInit.foldl (fun m c => memPut (some b) m c.1 c.2) []
      cyclesElapsed := 0
      busTime := 0 } := by
  unfold callConnect at h
  split at h
  · cases h
  · cases h
    exact ⟨‹_›, rfl⟩

/-- A `set_state` that answers was made at an instruction boundary (R110). -/
theorem callSetState_eq_next {r : Snapshot} {s t : State} (h : callSetState r s = .next t) :
    s.inFlight = false ∧ t = putState r s := by
  obtain ⟨-, h⟩ := whenConnected_eq_next h
  split at h
  · cases h
  · cases h
    exact ⟨Bool.eq_false_of_not_eq_true ‹_›, rfl⟩

/-- An `irq` that answers was made at an instruction boundary, and was ignored or taken (R234, R235). -/
theorem callIrq_eq_next {s t : State} (h : callIrq s = .next t) :
    s.inFlight = false ∧
      ((flagI s.p = true ∧ t = s) ∨ (flagI s.p = false ∧ t = interruptEntry vectorIrq s)) := by
  obtain ⟨-, h⟩ := whenConnected_eq_next h
  split at h
  · cases h
  · refine ⟨Bool.eq_false_of_not_eq_true ‹_›, ?_⟩
    split at h
    · cases h
      exact .inl ⟨‹_›, rfl⟩
    · cases h
      exact .inr ⟨Bool.eq_false_of_not_eq_true ‹_›, rfl⟩

/-- An `nmi` that answers was made at an instruction boundary, and was taken (R236). -/
theorem callNmi_eq_next {s t : State} (h : callNmi s = .next t) :
    s.inFlight = false ∧ t = interruptEntry vectorNmi s := by
  obtain ⟨-, h⟩ := whenConnected_eq_next h
  split at h
  · cases h
  · cases h
    exact ⟨Bool.eq_false_of_not_eq_true ‹_›, rfl⟩

/-- A cycle that answers only counts or fetches, or it also runs the operation of the descriptor in flight (R103, R106). -/
theorem runCycle_eq_next {s t : State} (h : runCycle s = .next t) :
    (runsOperation s = false ∧ t = beforeExecute s) ∨
      ∃ d, runsOperation s = true ∧ (beforeExecute s).desc = some d ∧
        t = executeOp (operationOf d.operation) (beforeExecute s) := by
  unfold runCycle at h
  split at h
  · rename_i hr
    unfold execute at h
    split at h
    · cases h
      exact .inr ⟨_, hr, ‹_›, rfl⟩
    · cases h
  · cases h
    exact .inl ⟨Bool.eq_false_of_not_eq_true ‹_›, rfl⟩

/-- `run_instruction()` that answers fetched an instruction at a boundary, or finished the one in flight (R109). -/
theorem runInstruction_eq_next {s t : State} (h : runInstruction s = .next t) :
    (s.inFlight = false ∧ t = reportCycles s (passCycles
      (retire (operationOf (descriptor (busPeek s s.pc)).operation) (fetchAndResolve (passCycles s))))) ∨
    ∃ d, s.inFlight = true ∧ s.desc = some d ∧ t = reportCycles s (passCycles
      (retire (operationOf d.operation) { s with remainingCycles := max 1 s.remainingCycles })) := by
  cases hf : s.inFlight with
  | false =>
    rw [runInstruction_boundary hf] at h
    cases h
    exact .inl ⟨rfl, rfl⟩
  | true =>
    cases hd : s.desc with
    | none => simp [runInstruction, hf, finishInFlight, hd] at h
    | some d =>
      rw [runInstruction_inFlight hf hd] at h
      cases h
      exact .inr ⟨d, rfl, rfl, by rw [hf, hd]⟩

end Sys2Proof.Machine
end

section
/-! SUPPORT. The build parameters and the bus over operations, cycles, calls and steps (00_scope.md R4, R8). -/

namespace Sys2Proof.Machine

/-- `t` has the build parameters and the bus of `s`. -/
def SameBuild (s t : State) : Prop := t.cfg = s.cfg ∧ t.bus = s.bus

theorem SameBuild.refl (s : State) : SameBuild s s := ⟨rfl, rfl⟩

theorem SameBuild.trans {s t u : State} (hst : SameBuild s t) (htu : SameBuild t u) : SameBuild s u :=
  ⟨htu.1.trans hst.1, htu.2.trans hst.2⟩

theorem sameBuild_executeOp (o : Operation) (s : State) : SameBuild s (executeOp (operationOf o) s) := by
  obtain ⟨hcfg, hbus, -⟩ := operationOf_frame o s
  exact ⟨hcfg, hbus⟩

theorem sameBuild_fetchAndResolve (s : State) : SameBuild s (fetchAndResolve s) := by
  simp [SameBuild, fetchAndResolve]

theorem sameBuild_resetEntry (s : State) : SameBuild s (resetEntry s) := by
  simp [SameBuild, resetEntry]

theorem sameBuild_interruptEntry (vector : Addr) (s : State) : SameBuild s (interruptEntry vector s) := by
  simp [SameBuild, interruptEntry]

theorem sameBuild_beforeExecute (s : State) : SameBuild s (beforeExecute s) := by
  by_cases hfetch : s.remainingCycles = 0 ∧ s.inFlight = false
  · rw [beforeExecute_fetch hfetch.1 hfetch.2]
    exact sameBuild_fetchAndResolve { s with cyclesElapsed := s.cyclesElapsed + 1 }
  · rw [beforeExecute_wait hfetch]
    exact ⟨rfl, rfl⟩

theorem sameBuild_runCycle {s t : State} (h : runCycle s = .next t) : SameBuild s t := by
  obtain ⟨-, rfl⟩ | ⟨d, -, -, rfl⟩ := runCycle_eq_next h
  · exact sameBuild_beforeExecute s
  · exact (sameBuild_beforeExecute s).trans (sameBuild_executeOp d.operation (beforeExecute s))

theorem sameBuild_runInstruction {s t : State} (h : runInstruction s = .next t) : SameBuild s t := by
  obtain ⟨-, rfl⟩ | ⟨d, -, -, rfl⟩ := runInstruction_eq_next h
  · exact (sameBuild_fetchAndResolve (passCycles s)).trans (sameBuild_executeOp _ (passCycles _))
  · exact sameBuild_executeOp d.operation (passCycles _)

/-- A call that answers keeps the build parameters, and on a connected core the bus: only `connect` installs one. -/
theorem hostCall_build {c : HostCall} {s t : State} (h : hostCall c s = .next t) :
    t.cfg = s.cfg ∧ (Connected s → t.bus = s.bus) := by
  suffices hb : SameBuild s t ∨ (t.cfg = s.cfg ∧ ¬Connected s) from
    hb.elim (fun hs => ⟨hs.1, fun _ => hs.2⟩) (fun hn => ⟨hn.1, fun hc => absurd hc hn.2⟩)
  cases c with
  | connect b memInit =>
    obtain ⟨hnone, rfl⟩ := callConnect_eq_next h
    exact .inr ⟨(sameBuild_resetEntry _).1, by simp [hnone]⟩
  | runCycle => exact .inl (sameBuild_runCycle (whenConnected_eq_next h).2)
  | runInstruction => exact .inl (sameBuild_runInstruction (whenConnected_eq_next h).2)
  | getState =>
    obtain ⟨-, ⟨⟩⟩ := whenConnected_eq_next h
    exact .inl ⟨rfl, rfl⟩
  | setState r =>
    obtain ⟨-, rfl⟩ := callSetState_eq_next h
    exact .inl ⟨rfl, rfl⟩
  | readMemory a =>
    obtain ⟨-, ⟨⟩⟩ := whenConnected_eq_next h
    exact .inl ⟨rfl, rfl⟩
  | writeMemory a v =>
    obtain ⟨-, ⟨⟩⟩ := whenConnected_eq_next h
    exact .inl ⟨rfl, rfl⟩
  | reset =>
    obtain ⟨-, ⟨⟩⟩ := whenConnected_eq_next h
    exact .inl (sameBuild_resetEntry s)
  | irq =>
    obtain ⟨-, ⟨-, rfl⟩ | ⟨-, rfl⟩⟩ := callIrq_eq_next h
    · exact .inl (.refl t)
    · exact .inl (sameBuild_interruptEntry vectorIrq s)
  | nmi =>
    obtain ⟨-, rfl⟩ := callNmi_eq_next h
    exact .inl (sameBuild_interruptEntry vectorNmi s)

end Sys2Proof.Machine

namespace Sys2Proof.Proofs
open Sys2Proof.Machine

/-- Settles O56: a step is one call, made in a state that differs from `s` in its ports and its list of calls alone. -/
theorem parametersNeverChange : Obligations.ParametersNeverChange := by
  unfold Obligations.ParametersNeverChange
  intro s t h
  obtain ⟨-, hcall⟩ | ⟨_, _, -, hcall⟩ := step_cases s
  all_goals
    obtain ⟨hcfg, hbus⟩ := hostCall_build (hcall.symm.trans h)
    exact ⟨hcfg, hbus⟩

end Sys2Proof.Proofs
end

section
/-! SUPPORT. The three byte functions of pushes and pulls, bit by bit (10_state.md R34). -/

namespace Sys2Proof.Machine

/-- The bits of the masks that the three functions use: bits 4 and 5, alone or together, and their complements. -/
theorem getLsbD_breakUnusedMasks {k : Nat} (hk : k < 8) :
    (0x20#8).getLsbD k = decide (k = 5) ∧ (0xEF#8).getLsbD k = !decide (k = 4) ∧
      (0x30#8).getLsbD k = decide (k = 4 ∨ k = 5) ∧ (0xCF#8).getLsbD k = !decide (k = 4 ∨ k = 5) := by
  revert k
  decide

theorem getLsbD_pushedPsw (p : Byte) {k : Nat} (hk : k < 8) :
    (pushedPsw p).getLsbD k = if k = 4 ∨ k = 5 then true else p.getLsbD k := by
  obtain ⟨-, -, h30, -⟩ := getLsbD_breakUnusedMasks hk
  by_cases hbu : k = 4 ∨ k = 5 <;> simp [pushedPsw, h30, hbu]

theorem getLsbD_pushedPhw (p : Byte) {k : Nat} (hk : k < 8) :
    (pushedPhw p).getLsbD k = if k = 4 then false else if k = 5 then true else p.getLsbD k := by
  obtain ⟨h20, hEF, -, -⟩ := getLsbD_breakUnusedMasks hk
  by_cases hb : k = 4
  · simp [pushedPhw, hb]
  · by_cases hu : k = 5 <;> simp [pushedPhw, h20, hEF, hb, hu]

theorem getLsbD_pulledP (p v : Byte) {k : Nat} (hk : k < 8) :
    (pulledP p v).getLsbD k = if k = 4 ∨ k = 5 then p.getLsbD k else v.getLsbD k := by
  obtain ⟨-, -, h30, hCF⟩ := getLsbD_breakUnusedMasks hk
  by_cases hbu : k = 4 ∨ k = 5 <;> simp [pulledP, h30, hCF, hbu]

end Sys2Proof.Machine

namespace Sys2Proof.Proofs
open Sys2Proof.Machine

/-- Settles O26: each byte function by the law of its bits. -/
theorem pushedAndPulledStatus : Obligations.PushedAndPulledStatus := by
  unfold Obligations.PushedAndPulledStatus
  intro p v k hk
  exact ⟨getLsbD_pushedPsw p hk, getLsbD_pushedPhw p hk, getLsbD_pulledP p v hk⟩

end Sys2Proof.Proofs
end

section
/-! SUPPORT. The stack on every bus, and a push followed by a pop (10_state.md R24, R35 to R37). -/

namespace Sys2Proof.Machine

/-- Where RAM stands behind an address, a bus read returns the RAM byte (R55, R56). -/
theorem busPeek_of_backing {s : State} {a : Addr} {k : Nat} (h : backing s.bus a = some k) :
    busPeek s a = memRead s.mem k := by
  simp [busPeek, h]

/-- A pop that finds SP and the byte behind the stack address as a push left them gives the pushed byte back (R37). -/
theorem pop_of_push {s h : State} {v : Byte} {k : Nat} (hwf : memWf s.bus s.mem = true)
    (hk : backing s.bus (stackAddr s.sp) = some k) (hbus : h.bus = s.bus) (hsp : h.sp = (push v s).sp)
    (hmem : memRead h.mem k = memRead (push v s).mem k) : (pop h).1 = v ∧ (pop h).2.sp = s.sp := by
  have hsp' : h.sp + 1 = s.sp := by simp [hsp]
  refine ⟨?_, hsp'⟩
  calc (pop h).1 = busPeek h (stackAddr s.sp) := by rw [pop_fst, hsp']
    _ = memRead h.mem k := busPeek_of_backing (hbus ▸ hk)
    _ = memRead (push v s).mem k := hmem
    _ = v := by rw [push_mem, memRead_memPut hwf, if_pos hk]

end Sys2Proof.Machine

namespace Sys2Proof.Proofs
open Sys2Proof.Machine

/-- Settles O18: the fields of `push` and `pop` by their laws, the byte given back by `pop_of_push`. -/
theorem pushThenPopRestores : Obligations.PushThenPopRestores := by
  unfold Obligations.PushThenPopRestores
  intro s v
  refine ⟨toNat_stackAddr s.sp, rfl, ?_, rfl, fun hwf => memoryAfter_one hwf rfl, rfl, ?_, rfl, rfl, rfl, ?_⟩
  · rw [push_sp, BitVec.toNat_sub]
    simp [Nat.add_comm]
  · simp
  · intro k h hwf hk hbus hsp hmem
    exact pop_of_push hwf hk hbus hsp hmem

end Sys2Proof.Proofs
end

section
/-! SUPPORT. RESET on a connected core, and the state it leaves at power-on (10_state.md R46, R47; 70_reset_and_hazards.md
R261 to R264). -/

namespace Sys2Proof.Machine

/-- All that RESET does (R46, R47, R261): the reset values, the two vector reads, and no other change. -/
theorem resetEntry_eq (s : State) :
    resetEntry s = { State.reset with
      pc := w16 (peekAt 1 s 0xFFFD) (peekAt 0 s 0xFFFC)
      cyclesElapsed := s.cyclesElapsed
      bus := s.bus
      mem := s.mem
      cfg := s.cfg
      busTime := s.busTime + 2
      busLog := s.busLog ++ [.read 0xFFFC (peekAt 0 s 0xFFFC), .read 0xFFFD (peekAt 1 s 0xFFFD)]
      hostCalls := s.hostCalls
      reply := s.reply } := by
  have happend : ∀ x y : Txn, s.busLog ++ [x, y] = s.busLog ++ [x] ++ [y] := by simp
  rw [happend]
  rfl

/-- The six registers after RESET (R46, R261). -/
theorem getState_resetEntry (s : State) :
    getState (resetEntry s) =
      { pc := w16 (peekAt 1 s 0xFFFD) (peekAt 0 s 0xFFFC), sp := 0xFD, a := 0, x := 0, y := 0, p := 0x34 } := rfl

/-- RESET reads the two bytes of its vector, the low one first, and makes no other transaction (R261). -/
theorem busShape_resetEntry (s : State) :
    busShape (resetEntry s) = busShape s ++ [(false, 0xFFFC), (false, 0xFFFD)] := by
  simp [resetEntry_eq, busShape, txnShape]

/-- The empty `FlatRAM64K` gives the blank byte at every address (R55, log entry 4). -/
theorem peekAt_emptyRam {s : State} (n : Nat) (a : Addr) (hbus : s.bus = some .flatRam) (hmem : s.mem = []) :
    peekAt n s a = memBlank := by
  simp [peekAt, busPeek_flat, hbus, hmem, memRead]

/-- On a bus whose reads have no side effect, an address of the upper half reads alike at any time (R55, R56). -/
theorem peekAt_upper {s t : State} {a : Addr} (n : Nat) (hc : Connected s) (ho : s.bus ≠ some .other)
    (ha : 0x8000 ≤ a.toNat) (hbus : t.bus = s.bus) (hmem : t.mem = s.mem) : peekAt n t a = peekAt n s a := by
  have hlow : ¬a.toNat ≤ 0x1FFF := by omega
  unfold peekAt busPeek
  simp only [hbus, hmem]
  cases hb : s.bus with
  | none => simp [Connected, hb] at hc
  | some b =>
    cases b with
    | flatRam => rfl
    | nes routed => simp [backing, hlow, ha]
    | other => exact absurd hb ho

/-- A second RESET leaves the snapshot that the first one left (R262). -/
theorem getState_resetEntry_resetEntry {s : State} (hc : Connected s) (ho : s.bus ≠ some .other) :
    getState (resetEntry (resetEntry s)) = getState (resetEntry s) := by
  obtain ⟨-, hbus⟩ := sameBuild_resetEntry s
  have hmem : (resetEntry s).mem = s.mem := rfl
  rw [getState_resetEntry (resetEntry s), getState_resetEntry s, peekAt_upper 1 hc ho (by decide) hbus hmem,
    peekAt_upper 0 hc ho (by decide) hbus hmem]

end Sys2Proof.Machine

namespace Sys2Proof.Proofs
open Sys2Proof.Machine

/-- Settles O42: on a connected core `reset()` is `resetEntry`, which leaves every field as claimed. -/
theorem resetLeavesTheResetValues : Obligations.ResetLeavesTheResetValues := by
  unfold Obligations.ResetLeavesTheResetValues
  intro s hc
  have hanswer : hostCall .reset s = .next (resetEntry s) := whenConnected_of hc _
  refine ⟨resetEntry s, hanswer, getState_resetEntry s, rfl, rfl, rfl, rfl, rfl, rfl, rfl, rfl, rfl, rfl,
    busShape_resetEntry s, fun ho => ⟨resetEntry (resetEntry s), ?_, getState_resetEntry_resetEntry hc ho⟩⟩
  exact whenConnected_of (s := resetEntry s) hc _

/-- Settles O44: every read of the empty `FlatRAM64K` gives the blank byte, the two vector reads included. -/
theorem resetStateIsPowerOnState : Obligations.ResetStateIsPowerOnState := by
  unfold Obligations.ResetStateIsPowerOnState
  intro s hnone
  have hvector : w16 memBlank memBlank = State.reset.pc := by decide
  simp only [hostCall, callConnect, hnone, resetEntry_eq, List.foldl_nil, peekAt_emptyRam, hvector]
  rfl

/-- Settles O57: the reset memory is empty, hence canonical, and nothing is in flight. -/
theorem resetStateMeetsInvariant : Obligations.ResetStateMeetsInvariant := by
  unfold Obligations.ResetStateMeetsInvariant
  exact ⟨⟨memWf_reset, rfl⟩, rfl⟩

end Sys2Proof.Proofs
end

section
/-! SUPPORT. The registers over each operation (10_state.md R22). -/

namespace Sys2Proof.Machine

/-! ## The shared paths of branches and of read-modify-writes -/

@[simp] theorem branch_a (c : Bool) (s : State) : (branch c s).1.a = s.a := by cases c <;> rfl
@[simp] theorem branch_x (c : Bool) (s : State) : (branch c s).1.x = s.x := by cases c <;> rfl
@[simp] theorem branch_y (c : Bool) (s : State) : (branch c s).1.y = s.y := by cases c <;> rfl
@[simp] theorem branch_sp (c : Bool) (s : State) : (branch c s).1.sp = s.sp := by cases c <;> rfl
@[simp] theorem branch_p (c : Bool) (s : State) : (branch c s).1.p = s.p := by cases c <;> rfl

@[simp] theorem modifyOperand_x (f : Bool → Byte → Byte × Bool) (s : State) : (modifyOperand f s).x = s.x := by
  simp [modifyOperand]
@[simp] theorem modifyOperand_y (f : Bool → Byte → Byte × Bool) (s : State) : (modifyOperand f s).y = s.y := by
  simp [modifyOperand]
@[simp] theorem modifyOperand_sp (f : Bool → Byte → Byte × Bool) (s : State) : (modifyOperand f s).sp = s.sp := by
  simp [modifyOperand]

@[simp] theorem addToOperand_x (d : Byte) (s : State) : (addToOperand d s).x = s.x := by simp [addToOperand]
@[simp] theorem addToOperand_y (d : Byte) (s : State) : (addToOperand d s).y = s.y := by simp [addToOperand]
@[simp] theorem addToOperand_sp (d : Byte) (s : State) : (addToOperand d s).sp = s.sp := by simp [addToOperand]

/-- A store through an address leaves A (R40). -/
theorem store_a_of_mem {s : State} (h : ∃ a, s.operandRef = .mem a) (v : Byte) : (store v s).a = s.a := by
  obtain ⟨a, ha⟩ := h
  simp [store_of_mem ha]

theorem modifyOperand_a_of_mem {s : State} (h : ∃ a, s.operandRef = .mem a) (f : Bool → Byte → Byte × Bool) :
    (modifyOperand f s).a = s.a := by
  simp only [modifyOperand]
  rw [store_a_of_mem] <;> simp [h]

theorem addToOperand_a_of_mem {s : State} (h : ∃ a, s.operandRef = .mem a) (d : Byte) :
    (addToOperand d s).a = s.a := by
  simp only [addToOperand]
  rw [store_a_of_mem] <;> simp [h]

/-! ## One law per register -/

/-- The operations that write through their OperandRef, which may be A (R40). -/
def storesOperand : List Operation := [.asl, .lsr, .rol, .ror, .sta, .stx, .sty, .inc, .dec]

/-- A is written by its own operations, and by those that store through an OperandRef that is A. -/
theorem operationOf_a {o : Operation} (h : o ∉ [Operation.lda, .txa, .tya, .pla, .and, .ora, .eor, .adc, .sbc]) {s : State}
    (hs : o ∈ storesOperand → ∃ a, s.operandRef = .mem a) : (operationOf o s).1.a = s.a := by
  cases o
  case lda | txa | tya | pla | and | ora | eor | adc | sbc => simp at h
  case ldx | ldy | cmp | cpx | cpy | bit => exact load_a s
  case sta | stx | sty => exact store_a_of_mem (hs (by decide)) _
  case asl | lsr | rol | ror => exact modifyOperand_a_of_mem (hs (by decide)) _
  case inc | dec => exact addToOperand_a_of_mem (hs (by decide)) _
  case bpl | bmi | bvc | bvs | bcc | bcs | bne | beq => exact branch_a _ s
  all_goals rfl

theorem operationOf_x {o : Operation} (h : o ∉ [Operation.ldx, .tax, .tsx, .inx, .dex]) (s : State) :
    (operationOf o s).1.x = s.x := by
  cases o
  case ldx | tax | tsx | inx | dex => simp at h
  case lda | ldy | and | ora | eor | adc | sbc | cmp | cpx | cpy | bit => exact load_x s
  case sta | stx | sty => exact store_x _ s
  case asl | lsr | rol | ror => exact modifyOperand_x _ s
  case inc | dec => exact addToOperand_x _ s
  case bpl | bmi | bvc | bvs | bcc | bcs | bne | beq => exact branch_x _ s
  all_goals rfl

theorem operationOf_y {o : Operation} (h : o ∉ [Operation.ldy, .tay, .iny, .dey]) (s : State) :
    (operationOf o s).1.y = s.y := by
  cases o
  case ldy | tay | iny | dey => simp at h
  case lda | ldx | and | ora | eor | adc | sbc | cmp | cpx | cpy | bit => exact load_y s
  case sta | stx | sty => exact store_y _ s
  case asl | lsr | rol | ror => exact modifyOperand_y _ s
  case inc | dec => exact addToOperand_y _ s
  case bpl | bmi | bvc | bvs | bcc | bcs | bne | beq => exact branch_y _ s
  all_goals rfl

theorem operationOf_sp {o : Operation} (h : o ∉ [Operation.txs, .pha, .php, .pla, .plp, .jsr, .rts, .rti, .brk])
    (s : State) : (operationOf o s).1.sp = s.sp := by
  cases o
  case txs | pha | php | pla | plp | jsr | rts | rti | brk => simp at h
  case lda | ldx | ldy | and | ora | eor | adc | sbc | cmp | cpx | cpy | bit => exact load_sp s
  case sta | stx | sty => exact store_sp _ s
  case asl | lsr | rol | ror => exact modifyOperand_sp _ s
  case inc | dec => exact addToOperand_sp _ s
  case bpl | bmi | bvc | bvs | bcc | bcs | bne | beq => exact branch_sp _ s
  all_goals rfl

/-- Of the operations that write through their OperandRef, only the shifts have mode ACC, and none has IMP or REL (R144,
R176 to R179, R188). -/
theorem mode_of_storesOperand {i : Instr} (hw : i.wf = true) (ho : i.operation ∈ storesOperand)
    (hacc : ¬(i.operation ∈ [Operation.asl, .lsr, .rol, .ror] ∧ i.operand.mode = .acc)) :
    i.operand.mode ∉ [Mode.imp, .acc, .rel] := by
  cases i
  case asl o | lsr o | rol o | ror o =>
    have hmode : o.mode ≠ .acc := fun h => hacc ⟨by simp [Instr.operation], h⟩
    revert hw hmode
    simp only [Instr.wf, Instr.operand]
    generalize o.mode = m
    cases m <;> decide
  case sta o | stx o | sty o | inc o | dec o =>
    revert hw
    simp only [Instr.wf, Instr.operand]
    generalize o.mode = m
    cases m <;> decide
  all_goals simp [Instr.operation, storesOperand] at ho

end Sys2Proof.Machine

namespace Sys2Proof.Proofs
open Sys2Proof.Machine

/-- Settles O53: the operation of a well-formed instruction, register by register, in the state that fetching and
resolving left with the registers of `s`. -/
theorem registerWriters : Obligations.RegisterWriters := by
  unfold Obligations.RegisterWriters
  intro i s t h
  obtain ⟨hw, rfl⟩ := exec_eq_next h
  refine ⟨fun hop hacc => ?_, fun hop => ?_, fun hop => ?_, fun hop => ?_⟩
  · have hs : i.operation ∈ storesOperand → ∃ a, (atOperation i s).operandRef = .mem a := fun ho =>
      atOperation_mem_of_mode (mode_of_storesOperand hw ho hacc)
    exact (operationOf_a hop hs).trans (atOperation_a i s)
  · exact (operationOf_x hop _).trans (atOperation_x i s)
  · exact (operationOf_y hop _).trans (atOperation_y i s)
  · exact (operationOf_sp hop _).trans (atOperation_sp i s)

end Sys2Proof.Proofs
end

section
/-! SUPPORT. Which bits of P each operation may write (10_state.md R25 to R34). -/

namespace Sys2Proof.Machine

/-! ## A status byte but for the bits of a mask -/

/-- `q` is `p` but for bits of `mask`. -/
def WritesOnly (mask p q : Byte) : Prop := ∀ k, mask.getLsbD k = false → q.getLsbD k = p.getLsbD k

theorem writesOnly_of_eq {mask p q : Byte} (h : q = p) : WritesOnly mask p q := h ▸ fun _ _ => rfl

theorem WritesOnly.trans {mask p q r : Byte} (hpq : WritesOnly mask p q) (hqr : WritesOnly mask q r) :
    WritesOnly mask p r := fun k hk => (hqr k hk).trans (hpq k hk)

theorem WritesOnly.mono {part mask p q : Byte} (h : WritesOnly part p q) (hpart : part ||| mask = mask) :
    WritesOnly mask p q := by
  intro k hk
  rw [← hpart, BitVec.getLsbD_or, Bool.or_eq_false_iff] at hk
  exact h k hk.1

/-- A write of the bits of a mask. -/
theorem writesOnly_putFlag (mask : Byte) (b : Bool) (p : Byte) : WritesOnly mask p (putFlag mask b p) := by
  intro k hk
  cases b with
  | true => simp [putFlag, hk]
  | false => simpa [putFlag, hk] using fun h => BitVec.lt_of_getLsbD h

section
variable {mask p q : Byte} (h : WritesOnly mask p q)
include h

theorem WritesOnly.putC (b : Bool) (hm : 0x01 ||| mask = mask := by decide) : WritesOnly mask p (putC b q) :=
  h.trans ((writesOnly_putFlag 0x01 b q).mono hm)

theorem WritesOnly.putZ (b : Bool) (hm : 0x02 ||| mask = mask := by decide) : WritesOnly mask p (putZ b q) :=
  h.trans ((writesOnly_putFlag 0x02 b q).mono hm)

theorem WritesOnly.putI (b : Bool) (hm : 0x04 ||| mask = mask := by decide) : WritesOnly mask p (putI b q) :=
  h.trans ((writesOnly_putFlag 0x04 b q).mono hm)

theorem WritesOnly.putD (b : Bool) (hm : 0x08 ||| mask = mask := by decide) : WritesOnly mask p (putD b q) :=
  h.trans ((writesOnly_putFlag 0x08 b q).mono hm)

theorem WritesOnly.putV (b : Bool) (hm : 0x40 ||| mask = mask := by decide) : WritesOnly mask p (putV b q) :=
  h.trans ((writesOnly_putFlag 0x40 b q).mono hm)

theorem WritesOnly.putN (b : Bool) (hm : 0x80 ||| mask = mask := by decide) : WritesOnly mask p (putN b q) :=
  h.trans ((writesOnly_putFlag 0x80 b q).mono hm)

end

/-! ## The results of the operations -/

theorem writesOnly_setZN (v p : Byte) : WritesOnly 0x82 p (setZN v p) :=
  ((writesOnly_of_eq rfl).putZ _).putN _

theorem writesOnly_compareP (r m p : Byte) : WritesOnly 0x83 p (compareP r m p) :=
  (((writesOnly_of_eq rfl).putC _).putZ _).putN _

theorem writesOnly_bitP (a m p : Byte) : WritesOnly 0xC2 p (bitP a m p) :=
  (((writesOnly_of_eq rfl).putZ _).putV _).putN _

theorem writesOnly_putSum (r : AdderResult) (p : Byte) : WritesOnly 0xC3 p (putSum r p) :=
  ((((writesOnly_of_eq rfl).putC _).putZ _).putN _).putV _

/-- A pull writes every bit but the live B and U (R34). -/
theorem writesOnly_pulledP (p v : Byte) : WritesOnly 0xCF p (pulledP p v) := by
  intro k hk
  by_cases hk8 : k < 8
  · obtain ⟨-, -, -, hCF⟩ := getLsbD_breakUnusedMasks hk8
    have hbu : k = 4 ∨ k = 5 := by simpa [or_iff_not_imp_left] using hCF.symm.trans hk
    rw [getLsbD_pulledP p v hk8, if_pos hbu]
  · rw [BitVec.getLsbD_of_ge _ _ (by omega), BitVec.getLsbD_of_ge _ _ (by omega)]

theorem writesOnly_modifyOperand (f : Bool → Byte → Byte × Bool) (s : State) :
    WritesOnly 0x83 s.p (modifyOperand f s).p := by
  simp only [modifyOperand, store_p, load_p]
  exact ((writesOnly_of_eq rfl).putC _).trans ((writesOnly_setZN _ _).mono (by decide))

theorem writesOnly_addToOperand (d : Byte) (s : State) : WritesOnly 0x82 s.p (addToOperand d s).p := by
  simp only [addToOperand, store_p, load_p]
  exact writesOnly_setZN _ _

/-! ## The operations -/

/-- The bits of P that an operation may write (R26 to R33). -/
def writtenFlags : Operation → Byte
  | .lda | .ldx | .ldy | .tax | .tay | .tsx | .txa | .tya | .pla | .and | .ora | .eor
  | .inc | .dec | .inx | .iny | .dex | .dey => 0x82
  | .adc | .sbc => 0xC3
  | .cmp | .cpx | .cpy | .asl | .lsr | .rol | .ror => 0x83
  | .bit => 0xC2
  | .clc | .sec => 0x01
  | .cli | .sei | .brk => 0x04
  | .cld | .sed => 0x08
  | .clv => 0x40
  | .plp | .rti => 0xCF
  | .sta | .stx | .sty | .txs | .pha | .php | .jmp | .jsr | .rts | .nop | .xxx
  | .bcc | .bcs | .beq | .bmi | .bne | .bpl | .bvc | .bvs => 0x00

/-- No operation writes P outside its own bits. -/
theorem operationOf_writesOnly (o : Operation) (s : State) : WritesOnly (writtenFlags o) s.p (operationOf o s).1.p := by
  have hload : ∀ mask, WritesOnly mask s.p (load s).2.p := fun mask => writesOnly_of_eq (load_p s)
  cases o
  case lda | ldx | ldy | and | ora | eor => exact (hload _).trans (writesOnly_setZN _ _)
  case tax | tay | tsx | txa | tya | pla | inx | iny | dex | dey => exact writesOnly_setZN _ s.p
  case inc | dec => exact writesOnly_addToOperand _ s
  case asl | lsr | rol | ror => exact writesOnly_modifyOperand _ s
  case adc | sbc => exact (hload _).trans (writesOnly_putSum _ _)
  case cmp | cpx | cpy => exact (hload _).trans (writesOnly_compareP _ _ _)
  case bit => exact (hload _).trans (writesOnly_bitP _ _ _)
  case clc | sec => exact writesOnly_putFlag 0x01 _ s.p
  case cli | sei | brk => exact writesOnly_putFlag 0x04 _ s.p
  case cld | sed => exact writesOnly_putFlag 0x08 _ s.p
  case clv => exact writesOnly_putFlag 0x40 _ s.p
  case plp | rti => exact writesOnly_pulledP s.p _
  case sta | stx | sty => exact writesOnly_of_eq (store_p _ s)
  case bcc | bcs | beq | bmi | bne | bpl | bvc | bvs => exact writesOnly_of_eq (branch_p _ s)
  all_goals exact writesOnly_of_eq rfl

/-- What `writtenFlags` says of an instruction that completes. -/
theorem exec_writesOnly {i : Instr} {s t : State} (h : exec i s = .next t) :
    WritesOnly (writtenFlags i.operation) s.p t.p := by
  obtain ⟨-, rfl⟩ := exec_eq_next h
  exact atOperation_p i s ▸ operationOf_writesOnly i.operation (atOperation i s)

/-! ## The writers of each flag -/

theorem writtenFlags_c {o : Operation}
    (h : o ∉ [Operation.adc, .sbc, .cmp, .cpx, .cpy, .asl, .lsr, .rol, .ror, .clc, .sec, .plp, .rti]) :
    (writtenFlags o).getLsbD 0 = false := by
  revert h
  cases o <;> decide

theorem writtenFlags_zn {o : Operation}
    (h : o ∉ [Operation.lda, .ldx, .ldy, .tax, .tay, .tsx, .txa, .tya, .pla, .and, .ora, .eor, .asl, .lsr, .rol,
      .ror, .inc, .dec, .inx, .iny, .dex, .dey, .adc, .sbc, .cmp, .cpx, .cpy, .bit, .plp, .rti]) :
    (writtenFlags o).getLsbD 1 = false ∧ (writtenFlags o).getLsbD 7 = false := by
  revert h
  cases o <;> decide

theorem writtenFlags_i {o : Operation} (h : o ∉ [Operation.sei, .cli, .brk, .plp, .rti]) :
    (writtenFlags o).getLsbD 2 = false := by
  revert h
  cases o <;> decide

theorem writtenFlags_d {o : Operation} (h : o ∉ [Operation.sed, .cld, .plp, .rti]) :
    (writtenFlags o).getLsbD 3 = false := by
  revert h
  cases o <;> decide

theorem writtenFlags_v {o : Operation} (h : o ∉ [Operation.adc, .sbc, .bit, .clv, .plp, .rti]) :
    (writtenFlags o).getLsbD 6 = false := by
  revert h
  cases o <;> decide

/-- No operation writes B or U (R30, R31, log entry 19). -/
theorem writtenFlags_within (o : Operation) : writtenFlags o ||| 0xCF = 0xCF := by
  cases o <;> rfl

/-- A write outside bits 4 and 5 keeps B and U. -/
theorem WritesOnly.flagB_flagU {p q : Byte} (h : WritesOnly 0xCF p q) : flagB q = flagB p ∧ flagU q = flagU p :=
  ⟨h 4 rfl, h 5 rfl⟩

end Sys2Proof.Machine

namespace Sys2Proof.Proofs
open Sys2Proof.Machine

/-- Settles O54: an instruction keeps each bit of P that its operation's mask leaves out. -/
theorem flagWriters : Obligations.FlagWriters := by
  unfold Obligations.FlagWriters
  intro i s t h
  have hp := exec_writesOnly h
  refine ⟨fun ho => hp 0 (writtenFlags_c ho), fun ho => ?_, fun ho => hp 2 (writtenFlags_i ho),
    fun ho => hp 3 (writtenFlags_d ho), fun ho => hp 6 (writtenFlags_v ho),
    (hp.mono (writtenFlags_within i.operation)).flagB_flagU⟩
  obtain ⟨hz, hn⟩ := writtenFlags_zn ho
  exact ⟨hp 1 hz, hp 7 hn⟩

end Sys2Proof.Proofs
end

section
/-! SUPPORT. The live B and U over cycles, calls and steps (10_state.md R30, R31, R34). -/

namespace Sys2Proof.Machine

theorem writesOnly_executeOp (o : Operation) (s : State) : WritesOnly 0xCF s.p (executeOp (operationOf o) s).p :=
  (operationOf_writesOnly o s).mono (writtenFlags_within o)

theorem fetchAndResolve_p (s : State) : (fetchAndResolve s).p = s.p := by simp [fetchAndResolve]

theorem beforeExecute_p (s : State) : (beforeExecute s).p = s.p := by
  by_cases hfetch : s.remainingCycles = 0 ∧ s.inFlight = false
  · rw [beforeExecute_fetch hfetch.1 hfetch.2]
    exact fetchAndResolve_p { s with cyclesElapsed := s.cyclesElapsed + 1 }
  · rw [beforeExecute_wait hfetch]

/-- IRQ and NMI write I in the live P and nothing else (R234). -/
theorem writesOnly_interruptEntry (vector : Addr) (s : State) : WritesOnly 0xCF s.p (interruptEntry vector s).p :=
  (writesOnly_of_eq rfl).putI true

theorem writesOnly_runCycle {s t : State} (h : runCycle s = .next t) : WritesOnly 0xCF s.p t.p := by
  obtain ⟨-, rfl⟩ | ⟨d, -, -, rfl⟩ := runCycle_eq_next h
  · exact writesOnly_of_eq (beforeExecute_p s)
  · exact (writesOnly_of_eq (beforeExecute_p s)).trans (writesOnly_executeOp d.operation (beforeExecute s))

theorem writesOnly_runInstruction {s t : State} (h : runInstruction s = .next t) : WritesOnly 0xCF s.p t.p := by
  obtain ⟨-, rfl⟩ | ⟨d, -, -, rfl⟩ := runInstruction_eq_next h
  · exact (writesOnly_of_eq (fetchAndResolve_p (passCycles s))).trans (writesOnly_executeOp _ (passCycles _))
  · exact writesOnly_executeOp d.operation (passCycles _)

/-- Of the calls, only RESET, `connect` (by its RESET) and `set_state` write the live B and U. -/
theorem writesOnly_hostCall {c : HostCall} {s t : State} (h : hostCall c s = .next t) (hreset : c ≠ .reset)
    (hset : ∀ r, c ≠ .setState r) (hconnect : ∀ b memInit, c ≠ .connect b memInit) : WritesOnly 0xCF s.p t.p := by
  cases c with
  | connect b memInit => exact absurd rfl (hconnect b memInit)
  | setState r => exact absurd rfl (hset r)
  | reset => exact absurd rfl hreset
  | runCycle => exact writesOnly_runCycle (whenConnected_eq_next h).2
  | runInstruction => exact writesOnly_runInstruction (whenConnected_eq_next h).2
  | getState =>
    obtain ⟨-, ⟨⟩⟩ := whenConnected_eq_next h
    exact writesOnly_of_eq rfl
  | readMemory a =>
    obtain ⟨-, ⟨⟩⟩ := whenConnected_eq_next h
    exact writesOnly_of_eq rfl
  | writeMemory a v =>
    obtain ⟨-, ⟨⟩⟩ := whenConnected_eq_next h
    exact writesOnly_of_eq rfl
  | irq =>
    obtain ⟨-, ⟨-, rfl⟩ | ⟨-, rfl⟩⟩ := callIrq_eq_next h
    · exact writesOnly_of_eq rfl
    · exact writesOnly_interruptEntry vectorIrq s
  | nmi =>
    obtain ⟨-, rfl⟩ := callNmi_eq_next h
    exact writesOnly_interruptEntry vectorNmi s

end Sys2Proof.Machine

namespace Sys2Proof.Proofs
open Sys2Proof.Machine

/-- Settles O55: a step is one call, `run_instruction()` where none is listed, made in a state with the P of `s`. -/
theorem liveBreakAndUnusedBitsStay : Obligations.LiveBreakAndUnusedBitsStay := by
  unfold Obligations.LiveBreakAndUnusedBitsStay
  intro s t h hcalls
  obtain ⟨-, hcall⟩ | ⟨c, cs, hc, hcall⟩ := step_cases s
  · exact (writesOnly_hostCall (hcall.symm.trans h) (by simp) (by simp) (by simp)).flagB_flagU
  · obtain ⟨hreset, hset, hconnect⟩ := hcalls c cs hc
    exact (writesOnly_hostCall (hcall.symm.trans h) hreset hset hconnect).flagB_flagU

end Sys2Proof.Proofs
end

section
/-! SUPPORT. The bus transactions of the shared operations and of each operation (20_memory.md R61 to R63). -/

namespace Sys2Proof.Machine

/-! ## The bus and the stack -/

/-- A state whose bus port shows one transaction more than that of `s`. -/
theorem busShape_append {s t : State} {x : Txn} (h : t.busLog = s.busLog ++ [x]) :
    busShape t = busShape s ++ [txnShape x] := by
  simp [busShape, h]

@[simp] theorem busShape_busRead (s : State) (a : Addr) : busShape (busRead s a).2 = busShape s ++ [(false, a)] :=
  busShape_append (busRead_busLog s a)

@[simp] theorem busShape_busWrite (s : State) (a : Addr) (v : Byte) :
    busShape (busWrite s a v) = busShape s ++ [(true, a)] :=
  busShape_append (busWrite_busLog s a v)

@[simp] theorem busShape_push (v : Byte) (s : State) : busShape (push v s) = busShape s ++ [(true, stackAddr s.sp)] :=
  busShape_append (push_busLog v s)

@[simp] theorem busShape_pop (s : State) : busShape (pop s).2 = busShape s ++ [(false, stackAddr (s.sp + 1))] :=
  busShape_append (pop_busLog s)

@[simp] theorem busShape_busReadWord (s : State) (l h : Addr) :
    busShape (busReadWord s l h).2 = busShape s ++ [(false, l), (false, h)] := by
  simp [busReadWord]

/-- A word is pushed high byte first, to falling stack addresses (R58, R61). -/
@[simp] theorem busShape_pushWord (w : Addr) (s : State) :
    busShape (pushWord w s) = busShape s ++ [(true, stackAddr s.sp), (true, stackAddr (s.sp - 1))] := by
  simp [pushWord]

/-- A word is popped from rising stack addresses (D13, R61). -/
@[simp] theorem busShape_popWord (s : State) :
    busShape (popWord s).2 =
      busShape s ++ [(false, stackAddr (s.sp + 1)), (false, stackAddr (s.sp + 2))] := by
  simp [popWord, BitVec.add_assoc]

/-! ## The OperandRef -/

/-- A load reads the address of the OperandRef once, and makes no transaction for A (R40, R62). -/
@[simp] theorem busShape_load (s : State) : busShape (load s).2 = busShape s ++ refShape [false] s := by
  cases h : s.operandRef with
  | mem a => simp [load_of_mem h, refShape, h]
  | regA => simp [load_of_regA h, refShape, h]

/-- A store writes the address of the OperandRef once, and makes no transaction for A (R40, R62). -/
@[simp] theorem busShape_store (v : Byte) (s : State) : busShape (store v s) = busShape s ++ refShape [true] s := by
  cases h : s.operandRef with
  | mem a => simp [store_of_mem h, refShape, h]
  | regA => simp [store_of_regA h, refShape, h, busShape]

/-- A read-modify-write reads, then writes, the same address (R61, R62). -/
theorem busShape_store_load (v : Byte) {s u : State} (hlog : u.busLog = (load s).2.busLog)
    (href : u.operandRef = s.operandRef) : busShape (store v u) = busShape s ++ refShape [false, true] s := by
  have hu : busShape u = busShape s ++ refShape [false] s :=
    (congrArg (List.map txnShape) hlog).trans (busShape_load s)
  rw [busShape_store, hu]
  cases h : s.operandRef <;> simp [refShape, href, h]

theorem busShape_modifyOperand (f : Bool → Byte → Byte × Bool) (s : State) :
    busShape (modifyOperand f s) = busShape s ++ refShape [false, true] s :=
  busShape_store_load _ rfl (load_operandRef s)

theorem busShape_addToOperand (d : Byte) (s : State) :
    busShape (addToOperand d s) = busShape s ++ refShape [false, true] s :=
  busShape_store_load _ rfl (load_operandRef s)

/-! ## Handlers -/

/-- A handler entry pushes three bytes, then reads its vector low byte first (R226, R234). -/
theorem busShape_enterHandler (vector : Addr) (pushed : Byte) (s : State) :
    busShape (enterHandler vector pushed s) =
      busShape s ++ [(true, stackAddr s.sp), (true, stackAddr (s.sp - 1)), (true, stackAddr (s.sp - 2)),
        (false, vector), (false, vector + 1)] := by
  calc busShape (enterHandler vector pushed s)
      = busShape (push pushed (pushWord s.pc s)) ++ [(false, vector), (false, vector + 1)] :=
        busShape_busReadWord _ vector (vector + 1)
    _ = _ := by simp [sub_sub]

/-- The return from a handler pops P, then the PC low byte first (R200). -/
theorem busShape_leaveHandler (s : State) :
    busShape (leaveHandler s) =
      busShape s ++ [(false, stackAddr (s.sp + 1)), (false, stackAddr (s.sp + 2)), (false, stackAddr (s.sp + 3))] := by
  calc busShape (leaveHandler s)
      = busShape (pop s).2 ++ [(false, stackAddr (s.sp + 1 + 1)), (false, stackAddr (s.sp + 1 + 2))] :=
        busShape_popWord _
    _ = _ := by simp [BitVec.add_assoc]

/-! ## The operations -/

theorem busShape_branch (c : Bool) (s : State) : busShape (branch c s).1 = busShape s := by cases c <;> rfl

/-- The operation of each instruction makes the transactions of the table (R62), whatever state it runs in. -/
theorem busShape_operationOf (i : Instr) (u : State) :
    busShape (operationOf i.operation u).1 = busShape u ++ operationShape i u := by
  unfold operationShape
  generalize i.operation = o
  cases o
  case lda | ldx | ldy | and | ora | eor | adc | sbc | cmp | cpx | cpy | bit => exact busShape_load u
  case sta | stx | sty => exact busShape_store _ u
  case asl | lsr | rol | ror => exact busShape_modifyOperand _ u
  case inc | dec => exact busShape_addToOperand _ u
  case pha | php => exact busShape_push _ u
  case pla | plp => exact busShape_pop u
  case jsr => exact busShape_pushWord _ u
  case rts => exact busShape_popWord u
  case rti => exact busShape_leaveHandler u
  case brk => exact busShape_enterHandler vectorIrq _ _
  case bcc | bcs | beq | bmi | bne | bpl | bvc | bvs =>
    exact (busShape_branch _ u).trans (List.append_nil _).symm
  all_goals exact (List.append_nil (busShape u)).symm

end Sys2Proof.Machine

namespace Sys2Proof.Proofs
open Sys2Proof.Machine

/-- Settles O52: `exec` runs the operation in the state `atOperation`, and finishing it makes no transaction. -/
theorem operationsMakeTheListedTransactions : Obligations.OperationsMakeTheListedTransactions := by
  unfold Obligations.OperationsMakeTheListedTransactions
  intro i s t h
  obtain ⟨-, rfl⟩ := exec_eq_next h
  exact busShape_operationOf i (atOperation i s)

end Sys2Proof.Proofs
end

section
/-! SUPPORT. What the decoder reads of an opcode and its operand bytes, both ways (30_encoding.md R81 to R83, R87, R88). -/

namespace Sys2Proof

/-! ## The decoder -/

/-- An opcode followed by the bytes of an operand of its mode decodes to the opcode with that operand (R82, R94). -/
theorem decode_operandBytes {op : Byte} {o : Operand} (hmode : (descriptor op).mode = o.mode) (rest : List Byte) :
    decode (op :: (o.bytes ++ rest)) = .ok (instrOf op o, rest) := by
  simp only [decode, hmode]
  cases o
  case abs | abx | aby | ind => simp [Operand.mode, Operand.bytes, Mode.operandBytes, operandOf]
  all_goals rfl

/-- A successful decoding has read an opcode and the bytes of one operand of the opcode's mode (R82, R94). -/
theorem decode_eq_ok {bs rest : List Byte} {i : Instr} (h : decode bs = .ok (i, rest)) :
    ∃ op b1 b2, i = instrOf op (operandOf (descriptor op).mode b1 b2) ∧
      bs = op :: ((operandOf (descriptor op).mode b1 b2).bytes ++ rest) := by
  cases bs with
  | nil => cases h
  | cons op tail =>
    have htwo : (descriptor op).mode.operandBytes ≤ 2 := by cases (descriptor op).mode <;> decide
    simp only [bytes_operandOf]
    simp only [decode] at h
    split at h
    next hlen =>
      cases h
      exact ⟨op, 0, 0, rfl, by rw [hlen]; rfl⟩
    next b1 tail' hlen =>
      cases h
      exact ⟨op, b1, 0, rfl, by rw [hlen]; rfl⟩
    next b1 b2 tail' hzero hone =>
      cases h
      have hzero : (descriptor op).mode.operandBytes ≠ 0 := hzero
      have hone : (descriptor op).mode.operandBytes ≠ 1 := hone
      have hlen : (descriptor op).mode.operandBytes = 2 := by omega
      exact ⟨op, b1, b2, rfl, by rw [hlen]; rfl⟩
    next => cases h

/-- An opcode and two bytes decode, whatever they are, and the opcode's mode says how many operand bytes are read (R83). -/
theorem decode_three_bytes (op b1 b2 : Byte) (rest : List Byte) :
    decode (op :: b1 :: b2 :: rest) =
      .ok (instrOf op (operandOf (descriptor op).mode b1 b2), (b1 :: b2 :: rest).drop (descriptor op).mode.operandBytes) := by
  have hread := decode_operandBytes (op := op) (o := operandOf (descriptor op).mode b1 b2) (mode_operandOf _ b1 b2).symm
    ((b1 :: b2 :: rest).drop (descriptor op).mode.operandBytes)
  have hbytes : (operandOf (descriptor op).mode b1 b2).bytes ++ (b1 :: b2 :: rest).drop (descriptor op).mode.operandBytes =
      b1 :: b2 :: rest := by
    rw [bytes_operandOf]
    cases (descriptor op).mode <;> rfl
  rwa [hbytes] at hread

/-- The length of an instruction by its mode: the opcode and the operand bytes (R82). -/
theorem operandBytes_add_one (m : Mode) :
    m.operandBytes + 1 = if m ∈ [Mode.imp, .acc] then 1 else if m ∈ [Mode.abs, .abx, .aby, .ind] then 3 else 2 := by
  cases m <;> rfl

/-! ## The encoder -/

theorem encode_of_opcode {i : Instr} {op : Byte} (h : i.opcode = some op) : encode i = op :: i.operand.bytes := by
  simp [encode, h]

theorem decode_encode_append {i : Instr} (hwf : i.wf = true) (rest : List Byte) :
    decode (encode i ++ rest) = .ok (i, rest) := by
  obtain ⟨op, hop, -, hmode, hinstr⟩ := opcode_law i hwf
  calc decode (encode i ++ rest)
      = decode (op :: (i.operand.bytes ++ rest)) := by rw [encode_of_opcode hop, List.cons_append]
    _ = .ok (instrOf op i.operand, rest) := decode_operandBytes hmode rest
    _ = .ok (i, rest) := by rw [hinstr]

/-! ## The decode table -/

theorem mode_of_undocumented {op : Byte} (h : op ∈ undocumented) : (descriptor op).mode = .imp := by
  have hwf : (Instr.xxx op).wf = true := List.contains_iff_mem.mpr h
  obtain ⟨b, hb, -, hmode, -⟩ := opcode_law (.xxx op) hwf
  have hop : op = b := by simpa [Instr.opcode, h] using hb
  rw [hop, hmode]
  rfl

/-- The opcodes without a documented mnemonic are 0xEB and the XXX opcodes (R90, R91, R95). -/
theorem mnemonic_eq_unknown_iff (op : Byte) :
    (descriptor op).mnemonic = "???" ↔ op = 0xEB ∨ (descriptor op).operation = .xxx := by
  revert op
  decide +kernel

theorem mode_eq_acc_iff (op : Byte) : (descriptor op).mode = .acc ↔ op ∈ [(0x0A : Byte), 0x2A, 0x4A, 0x6A] := by
  revert op
  decide +kernel

theorem mode_eq_ind_iff (op : Byte) : (descriptor op).mode = .ind ↔ op = 0x6C := by
  revert op
  decide +kernel

theorem mode_eq_rel_iff (op : Byte) :
    (descriptor op).mode = .rel ↔ op ∈ [(0x10 : Byte), 0x30, 0x50, 0x70, 0x90, 0xB0, 0xD0, 0xF0] := by
  revert op
  decide +kernel

theorem mode_eq_zpy_iff (op : Byte) : (descriptor op).mode = .zpy ↔ op ∈ [(0x96 : Byte), 0xB6] := by
  revert op
  decide +kernel

theorem count_undocumented :
    ((List.range 256).filter (fun n => (descriptor (BitVec.ofNat 8 n)).operation == .xxx)).length = 104 := by
  decide +kernel

theorem count_documented :
    ((List.range 256).filter (fun n => (descriptor (BitVec.ofNat 8 n)).mnemonic != "???")).length = 151 := by
  decide +kernel

end Sys2Proof

namespace Sys2Proof.Proofs

/-- Settles O1: the opcode of the listing names in the map the operation and mode it was listed under, and the decoder reads
back the operand of an opcode's mode from its bytes. -/
theorem encodedInstructionDecodesToItself : Obligations.EncodedInstructionDecodesToItself := by
  unfold Obligations.EncodedInstructionDecodesToItself
  exact fun i rest hwf => decode_encode_append hwf rest

/-- Settles O2: the decoder has read an opcode and an operand of its mode, and these are the opcode and the operand of the
instruction it answers. -/
theorem decodedBytesEncodeBack : Obligations.DecodedBytesEncodeBack := by
  unfold Obligations.DecodedBytesEncodeBack
  intro bs i rest h
  obtain ⟨op, b1, b2, rfl, rfl⟩ := decode_eq_ok h
  obtain ⟨hwf, hop, hoperand⟩ := instrOf_law op b1 b2
  exact ⟨hwf, by rw [encode_of_opcode hop, hoperand, List.cons_append]⟩

/-- Settles O3: the mode of an opcode's descriptor says how many operand bytes the decoder reads. -/
theorem lengthIsFixedByOpcode : Obligations.LengthIsFixedByOpcode := by
  unfold Obligations.LengthIsFixedByOpcode
  intro op b1 b2 rest
  refine ⟨⟨instrOf op (operandOf (descriptor op).mode b1 b2), ?_⟩, ?_, rfl⟩
  · rw [← operandBytes_add_one, List.drop_succ_cons]
    exact decode_three_bytes op b1 b2 rest
  · intro hop
    simp [mode_of_undocumented hop]

/-- Settles O4: each clause is a fact about the 256 entries of the map; the bounds hold for every value of `UNDOC_CYCLES`. -/
theorem decodeTableShape : Obligations.DecodeTableShape := by
  unfold Obligations.DecodeTableShape
  exact ⟨length_opcodeMap, descriptor_cycles, count_documented, count_undocumented, mnemonic_eq_unknown_iff,
    mode_eq_acc_iff, mode_eq_ind_iff, mode_eq_rel_iff, mode_eq_zpy_iff⟩

/-- Settles O5: the decoder, run on each of the nine words. -/
theorem wordsOfTheSourceDecode : Obligations.WordsOfTheSourceDecode := by
  unfold Obligations.WordsOfTheSourceDecode
  exact ⟨rfl, rfl, rfl, rfl, rfl, rfl, rfl, rfl, rfl⟩

end Sys2Proof.Proofs
end

section
/-! SUPPORT. The invariant over cycles, calls and steps: canonical RAM, and coherent flight state (40_fetch_execute.md R103,
R105; 41_addressing_modes.md R135, R136). -/

namespace Sys2Proof.Machine

/-! ## What the resolver leaves -/

theorem mode_fetchOperand (m : Mode) (s : State) : (fetchOperand m s).1.mode = m := by
  obtain ⟨b1, b2, h⟩ := fetchOperand_eq m s
  rw [h, mode_operandOf]

/-- The OperandRef has the shape that the operand's mode gives (R136). -/
theorem refFits_resolve (o : Operand) (s : State) : refFits o.mode (resolve o s).operandRef = true := by
  cases o <;> rfl

/-- The resolver marks a page cross in the modes ABX, ABY and IZY alone (R135). -/
theorem pageCrossed_resolve (o : Operand) {s : State} (h : s.pageCrossed = false) :
    (resolve o s).pageCrossed = false ∨ mayCross o.mode = true := by
  cases o
  case abx | aby | izy => exact .inr rfl
  all_goals exact .inl h

/-- The resolver sets a branch offset in mode REL alone (R127). -/
theorem branchOffset_resolve (o : Operand) (s : State) :
    (resolve o s).branchOffset = s.branchOffset ∨ o.mode = .rel := by
  cases o
  case rel => exact .inr rfl
  all_goals exact .inl rfl

/-! ## Coherent flight state -/

/-- What it is for an instruction in flight to be coherent (R42, R103, R135, R136). -/
theorem flightOk_iff (s : State) :
    flightOk s = true ↔ (s.inFlight = true →
      1 ≤ s.remainingCycles ∧ s.desc = some (descriptor s.opcode) ∧
      refFits (descriptor s.opcode).mode s.operandRef = true ∧
      (s.pageCrossed = false ∨ mayCross (descriptor s.opcode).mode = true) ∧
      (s.branchOffset = 0 ∨ (descriptor s.opcode).mode = .rel)) := by
  cases hf : s.inFlight <;> simp [flightOk, hf, and_assoc]

theorem flightOk_of_boundary {s : State} (h : s.inFlight = false) : flightOk s = true := by
  simp [flightOk, h]

/-- In a coherent state an instruction in flight has its opcode's descriptor (R47, R105). -/
theorem desc_of_flightOk {s : State} (h : flightOk s = true) (hf : s.inFlight = true) :
    s.desc = some (descriptor s.opcode) := ((flightOk_iff s).mp h hf).2.1

/-- In a coherent state an instruction in flight has a cycle left (R103). -/
theorem remainingCycles_of_flightOk {s : State} (h : flightOk s = true) (hf : s.inFlight = true) :
    1 ≤ s.remainingCycles := ((flightOk_iff s).mp h hf).1

/-- Counting down keeps what is in flight coherent as long as a cycle is left. -/
theorem flightOk_countDown {s : State} (h : flightOk s = true) (c : Nat) {n : Nat} (hn : s.inFlight = true → 1 ≤ n) :
    flightOk { s with cyclesElapsed := c, remainingCycles := n } = true := by
  rw [flightOk_iff] at h ⊢
  intro hf
  exact ⟨hn hf, (h hf).2⟩

/-- An opcode entered and resolved with an operand of its mode is coherent: it has at least two base cycles (R105). -/
theorem flightOk_resolve_enter {op : Byte} {o : Operand} (hmode : o.mode = (descriptor op).mode) (s : State) :
    flightOk (resolve o (enter op s)) = true := by
  rw [flightOk_iff]
  intro _
  simp only [resolve_remainingCycles, resolve_desc, resolve_opcode, enter_opcode, enter_desc, enter_remainingCycles,
    ← hmode]
  exact ⟨Nat.le_of_succ_le (descriptor_cycles op).1, trivial, refFits_resolve o _, pageCrossed_resolve o rfl,
    branchOffset_resolve o _⟩

theorem flightOk_fetchAndResolve (s : State) : flightOk (fetchAndResolve s) = true :=
  flightOk_resolve_enter (mode_fetchOperand _ _) _

/-! ## Cycles and calls -/

theorem fetchAndResolve_mem (s : State) : (fetchAndResolve s).mem = s.mem := by simp [fetchAndResolve]

theorem beforeExecute_mem (s : State) : (beforeExecute s).mem = s.mem := by
  by_cases hfetch : s.remainingCycles = 0 ∧ s.inFlight = false
  · rw [beforeExecute_fetch hfetch.1 hfetch.2]
    exact fetchAndResolve_mem { s with cyclesElapsed := s.cyclesElapsed + 1 }
  · rw [beforeExecute_wait hfetch]

/-- Before the operation's cycle, what is in flight stays coherent. -/
theorem flightOk_beforeExecute {s : State} (h : flightOk s = true) (hrun : runsOperation s = false) :
    flightOk (beforeExecute s) = true := by
  have hleft : (beforeExecute s).inFlight = true → 1 ≤ (beforeExecute s).remainingCycles := by
    intro hf
    simp only [runsOperation, hf, Bool.and_true, beq_eq_false_iff_ne] at hrun
    omega
  by_cases hfetch : s.remainingCycles = 0 ∧ s.inFlight = false
  · rw [beforeExecute_fetch hfetch.1 hfetch.2] at hleft ⊢
    exact flightOk_countDown (flightOk_fetchAndResolve _) _ hleft
  · rw [beforeExecute_wait hfetch] at hleft ⊢
    exact flightOk_countDown h _ hleft

/-- After an operation nothing is in flight, and the RAM is as canonical as before. -/
theorem coherent_executeOp (o : Operation) {s : State} (h : memWf s.bus s.mem = true) :
    Coherent (executeOp (operationOf o) s) := by
  refine ⟨?_, flightOk_of_boundary rfl⟩
  rw [(sameBuild_executeOp o s).2]
  exact memWf_operationOf o h

theorem coherent_runCycle {s t : State} (hs : Coherent s) (h : runCycle s = .next t) : Coherent t := by
  obtain ⟨hmem, hflight⟩ := hs
  have hmem' : memWf (beforeExecute s).bus (beforeExecute s).mem = true := by
    rw [(sameBuild_beforeExecute s).2, beforeExecute_mem]
    exact hmem
  obtain ⟨hrun, rfl⟩ | ⟨d, -, -, rfl⟩ := runCycle_eq_next h
  · exact ⟨hmem', flightOk_beforeExecute hflight hrun⟩
  · exact coherent_executeOp d.operation hmem'

theorem coherent_runInstruction {s t : State} (hs : Coherent s) (h : runInstruction s = .next t) : Coherent t := by
  obtain ⟨-, rfl⟩ | ⟨d, -, -, rfl⟩ := runInstruction_eq_next h
  · have hmem : memWf (fetchAndResolve (passCycles s)).bus (fetchAndResolve (passCycles s)).mem = true := by
      rw [(sameBuild_fetchAndResolve _).2, fetchAndResolve_mem]
      exact hs.1
    exact coherent_executeOp _ (s := passCycles (fetchAndResolve (passCycles s))) hmem
  · exact coherent_executeOp d.operation (s := passCycles { s with remainingCycles := max 1 s.remainingCycles }) hs.1

theorem coherent_interruptEntry (vector : Addr) {s : State} (h : memWf s.bus s.mem = true) :
    Coherent (interruptEntry vector s) := by
  refine ⟨?_, flightOk_of_boundary rfl⟩
  rw [(sameBuild_interruptEntry vector s).2]
  exact memWf_memPut (memWf_memPut (memWf_memPut h _ _) _ _) _ _

theorem coherent_resetEntry {s : State} (h : memWf s.bus s.mem = true) : Coherent (resetEntry s) :=
  ⟨h, flightOk_of_boundary rfl⟩

/-- Every call that answers keeps the invariant. -/
theorem coherent_hostCall {c : HostCall} {s t : State} (hs : Coherent s) (h : hostCall c s = .next t) : Coherent t := by
  cases c with
  | connect b memInit =>
    obtain ⟨-, rfl⟩ := callConnect_eq_next h
    exact coherent_resetEntry (memWf_foldl_memPut memInit rfl)
  | runCycle => exact coherent_runCycle hs (whenConnected_eq_next h).2
  | runInstruction => exact coherent_runInstruction hs (whenConnected_eq_next h).2
  | getState =>
    obtain ⟨-, ⟨⟩⟩ := whenConnected_eq_next h
    exact hs
  | setState r =>
    obtain ⟨-, rfl⟩ := callSetState_eq_next h
    exact hs
  | readMemory a =>
    obtain ⟨-, ⟨⟩⟩ := whenConnected_eq_next h
    exact hs
  | writeMemory a v =>
    obtain ⟨-, ⟨⟩⟩ := whenConnected_eq_next h
    exact ⟨memWf_memPut hs.1 a v, hs.2⟩
  | reset =>
    obtain ⟨-, ⟨⟩⟩ := whenConnected_eq_next h
    exact coherent_resetEntry hs.1
  | irq =>
    obtain ⟨-, ⟨-, rfl⟩ | ⟨-, rfl⟩⟩ := callIrq_eq_next h
    · exact hs
    · exact coherent_interruptEntry vectorIrq hs.1
  | nmi =>
    obtain ⟨-, rfl⟩ := callNmi_eq_next h
    exact coherent_interruptEntry vectorNmi hs.1

end Sys2Proof.Machine

namespace Sys2Proof.Proofs
open Sys2Proof.Machine

/-- Settles O58: a step is one call, made in a state that is as coherent as `s`, and every call keeps the invariant. -/
theorem stepKeepsInvariant : Obligations.StepKeepsInvariant := by
  unfold Obligations.StepKeepsInvariant
  intro s t hs h
  obtain ⟨-, hcall⟩ | ⟨c, cs, -, hcall⟩ := step_cases s
  · have hports : Coherent (clearPorts s) := hs
    exact coherent_hostCall hports (hcall.symm.trans h)
  · have hports : Coherent (clearPorts { s with hostCalls := cs }) := hs
    exact coherent_hostCall hports (hcall.symm.trans h)

end Sys2Proof.Proofs
end

section
/-! SUPPORT. Which calls answer, and that none ends in a fault (40_fetch_execute.md R113, R115, R116; 60_exceptions.md R233). -/

namespace Sys2Proof.Machine

/-! ## Cycles and instructions always answer -/

/-- An instruction that is in flight when a `run_cycle` has fetched and counted has a descriptor (R105). -/
theorem desc_beforeExecute {s : State} (h : flightOk s = true) (hf : (beforeExecute s).inFlight = true) :
    ∃ d, (beforeExecute s).desc = some d := by
  by_cases hfetch : s.remainingCycles = 0 ∧ s.inFlight = false
  · rw [beforeExecute_fetch hfetch.1 hfetch.2] at hf ⊢
    exact ⟨_, desc_of_flightOk (s := fetchAndResolve _) (flightOk_fetchAndResolve _) hf⟩
  · rw [beforeExecute_wait hfetch] at hf ⊢
    exact ⟨_, desc_of_flightOk (s := s) h hf⟩

theorem runCycle_answers {s : State} (h : flightOk s = true) : ∃ t, runCycle s = .next t := by
  cases hrun : runsOperation s with
  | false => exact ⟨beforeExecute s, by simp [runCycle, hrun]⟩
  | true =>
    obtain ⟨-, hf⟩ := Bool.and_eq_true_iff.mp hrun
    obtain ⟨d, hd⟩ := desc_beforeExecute h hf
    exact ⟨executeOp (operationOf d.operation) (beforeExecute s), by simp [runCycle, hrun, execute, hd]⟩

theorem runInstruction_answers {s : State} (h : flightOk s = true) : ∃ t, runInstruction s = .next t := by
  cases hf : s.inFlight with
  | false => exact ⟨_, runInstruction_boundary hf⟩
  | true => exact ⟨_, runInstruction_inFlight hf (desc_of_flightOk h hf)⟩

/-! ## Refusals and answers -/

theorem hostCall_notConnected {c : HostCall} {s : State} (hbus : s.bus = none) (hc : ∀ b memInit, c ≠ .connect b memInit) :
    hostCall c s = .refused .notConnected := by
  cases c
  case connect b memInit => exact absurd rfl (hc b memInit)
  all_goals exact whenConnected_none hbus _

theorem callConnect_alreadyConnected {s : State} (h : Connected s) (b : Bus) (memInit : List (Addr × Byte)) :
    callConnect b memInit s = .refused .alreadyConnected := by
  obtain ⟨b', hb⟩ := Option.isSome_iff_exists.mp h
  simp [callConnect, hb]

theorem callSetState_midInstruction {s : State} (h : Connected s) (hf : s.inFlight = true) (r : Snapshot) :
    callSetState r s = .refused .midInstructionSetState := by
  rw [callSetState, whenConnected_of h, if_pos hf]

theorem callIrq_midInstruction {s : State} (h : Connected s) (hf : s.inFlight = true) :
    callIrq s = .refused .midInstructionInterrupt := by
  rw [callIrq, whenConnected_of h, if_pos hf]

theorem callNmi_midInstruction {s : State} (h : Connected s) (hf : s.inFlight = true) :
    callNmi s = .refused .midInstructionInterrupt := by
  rw [callNmi, whenConnected_of h, if_pos hf]

theorem callSetState_boundary {s : State} (h : Connected s) (hf : s.inFlight = false) (r : Snapshot) :
    callSetState r s = .next (putState r s) := by
  simp [callSetState, whenConnected_of h, hf]

theorem callIrq_boundary {s : State} (h : Connected s) (hf : s.inFlight = false) :
    callIrq s = .next (if flagI s.p then s else interruptEntry vectorIrq s) := by
  cases hi : flagI s.p <;> simp [callIrq, whenConnected_of h, hf, hi]

theorem callNmi_boundary {s : State} (h : Connected s) (hf : s.inFlight = false) :
    callNmi s = .next (interruptEntry vectorNmi s) := by
  simp [callNmi, whenConnected_of h, hf]

/-- On a connected core every call but `connect` answers, where the three calls that are refused in the middle of an
instruction are made at a boundary (R113). -/
theorem hostCall_answers {c : HostCall} {s : State} (h : Connected s) (hs : flightOk s = true)
    (hc : ∀ b memInit, c ≠ .connect b memInit)
    (hb : s.inFlight = true → (∀ r, c ≠ .setState r) ∧ c ≠ .irq ∧ c ≠ .nmi) : ∃ t, hostCall c s = .next t := by
  cases c with
  | connect b memInit => exact absurd rfl (hc b memInit)
  | runCycle => simpa only [hostCall, callRunCycle, whenConnected_of h] using runCycle_answers hs
  | runInstruction => simpa only [hostCall, callRunInstruction, whenConnected_of h] using runInstruction_answers hs
  | getState => exact ⟨_, whenConnected_of h _⟩
  | readMemory a => exact ⟨_, whenConnected_of h _⟩
  | writeMemory a v => exact ⟨_, whenConnected_of h _⟩
  | reset => exact ⟨_, whenConnected_of h _⟩
  | setState r =>
    cases hf : s.inFlight with
    | false => exact ⟨_, callSetState_boundary h hf r⟩
    | true => exact absurd rfl ((hb hf).1 r)
  | irq =>
    cases hf : s.inFlight with
    | false => exact ⟨_, callIrq_boundary h hf⟩
    | true => exact absurd rfl (hb hf).2.1
  | nmi =>
    cases hf : s.inFlight with
    | false => exact ⟨_, callNmi_boundary h hf⟩
    | true => exact absurd rfl (hb hf).2.2

theorem whenConnected_ne_fault {s : State} {r : CallResult} {f : Fault} (h : r ≠ .fault f) :
    whenConnected s r ≠ .fault f := by
  cases hb : s.bus with
  | none => simp [whenConnected_none hb]
  | some b => rwa [whenConnected_some hb]

/-- Whatever the call, a coherent core answers it or refuses it (R115, R233). -/
theorem hostCall_ne_fault {s : State} (hs : flightOk s = true) (c : HostCall) (f : Fault) : hostCall c s ≠ .fault f := by
  cases c with
  | connect b memInit => cases hb : s.bus <;> simp [hostCall, callConnect, hb]
  | runCycle =>
    obtain ⟨t, ht⟩ := runCycle_answers hs
    exact whenConnected_ne_fault (by simp [ht])
  | runInstruction =>
    obtain ⟨t, ht⟩ := runInstruction_answers hs
    exact whenConnected_ne_fault (by simp [ht])
  | getState | readMemory a | writeMemory a v | reset => exact whenConnected_ne_fault (by simp)
  | setState r | nmi => exact whenConnected_ne_fault (by split <;> simp)
  | irq =>
    refine whenConnected_ne_fault ?_
    split
    · simp
    · split <;> simp

end Sys2Proof.Machine

namespace Sys2Proof.Proofs
open Sys2Proof.Machine

/-- Settles O45: each refusal by the law of its call, and every other call of a coherent core answers. -/
theorem callsThatAreRefused : Obligations.CallsThatAreRefused := by
  unfold Obligations.CallsThatAreRefused
  intro s c
  refine ⟨fun hbus hc => hostCall_notConnected hbus hc, fun h hf => ⟨?_, ?_⟩, fun h hs => hostCall_answers h hs.2⟩
  · rintro r rfl
    exact callSetState_midInstruction h hf r
  · rintro (rfl | rfl)
    · exact callIrq_midInstruction h hf
    · exact callNmi_midInstruction h hf

/-- Settles O59: a step is one call of a core as coherent as `s`; with none listed it is `run_instruction()`, which a
connected core answers. -/
theorem coreNeverStops : Obligations.CoreNeverStops := by
  unfold Obligations.CoreNeverStops
  intro s hs
  obtain ⟨hnil, hcall⟩ | ⟨c, cs, hcons, hcall⟩ := step_cases s
  · have hflight : flightOk (clearPorts s) = true := hs.2
    rw [hcall]
    exact ⟨fun h _ => hostCall_answers h hflight (by simp) (by simp), hostCall_ne_fault hflight .runInstruction⟩
  · have hflight : flightOk (clearPorts { s with hostCalls := cs }) = true := hs.2
    rw [hcall]
    exact ⟨fun _ hnil => by simp [hcons] at hnil, hostCall_ne_fault hflight c⟩

end Sys2Proof.Proofs
end

section
/-! SUPPORT. The power-on RESET of `connect`, and the snapshot and memory calls on each bus (20_memory.md R52 to R57;
40_fetch_execute.md R102, R110, R111). -/

namespace Sys2Proof.Machine

/-! ## connect -/

/-- A byte of RAM after a list of bus writes, the first one made first (R55, R102). -/
theorem memRead_foldl_memPut {b : Option Bus} (k : Nat) (writes : List (Addr × Byte)) :
    ∀ {m : List Host.Cell}, memWf b m = true →
      memRead (writes.foldl (fun m c => memPut b m c.1 c.2) m) k = byteAfter b writes k (memRead m k) := by
  induction writes with
  | nil => exact fun _ => rfl
  | cons w writes ih =>
    intro m hm
    calc memRead ((w :: writes).foldl (fun m c => memPut b m c.1 c.2) m) k
        = byteAfter b writes k (memRead (memPut b m w.1 w.2) k) := ih (memWf_memPut hm w.1 w.2)
      _ = byteAfter b (w :: writes) k (memRead m k) := by rw [memRead_memPut hm, byteAfter, byteAfter, List.foldl_cons]

/-- The state in which `connect` performs RESET: the bus installed with `MEM_INIT` in it, and both counters at 0 (R102). -/
def installed (b : Bus) (memInit : List (Addr × Byte)) (s : State) : State :=
  { s with
    bus := some b
    mem := memInit.foldl (fun m c => memPut (some b) m c.1 c.2) []
    cyclesElapsed := 0
    busTime := 0 }

theorem callConnect_of_none {s : State} (h : s.bus = none) (b : Bus) (memInit : List (Addr × Byte)) :
    callConnect b memInit s = .next (resetEntry (installed b memInit s)) := by
  simp [callConnect, h, installed]

/-! ## What each bus reads and takes (R55 to R57) -/

theorem busTakes_of_backing {s : State} {a : Addr} {k : Nat} (h : backing s.bus a = some k) : busTakes s a = true := by
  simp [busTakes, h]

/-- The mirror of an address in the 2 KiB of work RAM (R56). -/
theorem toNat_and_mirror (a : Addr) : (a &&& 0x07FF).toNat = a.toNat % 0x0800 := by
  rw [BitVec.toNat_and]
  exact Nat.and_two_pow_sub_one_eq_mod a.toNat 11

theorem backing_nes_low {routed : List (Addr × Addr)} {a : Addr} (h : a.toNat ≤ 0x1FFF) :
    backing (some (.nes routed)) a = some (a &&& 0x07FF).toNat := by
  rw [toNat_and_mirror]
  simp [backing, h]

theorem backing_nes_high {routed : List (Addr × Addr)} {a : Addr} (h : ¬a.toNat ≤ 0x1FFF) :
    backing (some (.nes routed)) a = none := by
  simp [backing, h]

/-- Above the work RAM an address is routed when a range holds it (R56). -/
theorem nesRouted_eq_true_iff {routed : List (Addr × Addr)} {a : Addr} (h : ¬a.toNat ≤ 0x1FFF) :
    nesRouted routed a = true ↔ ∃ q ∈ routed, q.1.toNat ≤ a.toNat ∧ a.toNat ≤ q.2.toNat := by
  have hhigh : 0x2000 ≤ a.toNat := by omega
  simp only [nesRouted, hhigh, decide_true, Bool.true_and, List.any_eq_true, Bool.and_eq_true, decide_eq_true_eq]

theorem nesRouted_eq_false {routed : List (Addr × Addr)} {a : Addr} (h : ¬a.toNat ≤ 0x1FFF)
    (hq : ∀ q ∈ routed, a.toNat < q.1.toNat ∨ q.2.toNat < a.toNat) : nesRouted routed a = false := by
  rw [Bool.eq_false_iff, ne_eq, nesRouted_eq_true_iff h]
  rintro ⟨q, hmem, hlo, hhi⟩
  have := hq q hmem
  omega

/-- A read of `NESBus` above the work RAM (R56). -/
theorem busPeek_nes_high {s : State} {routed : List (Addr × Addr)} {a : Addr} (hb : s.bus = some (.nes routed))
    (h : ¬a.toNat ≤ 0x1FFF) :
    busPeek s a = if 0x8000 ≤ a.toNat then Config.nesHighMap a
      else if nesRouted routed a then Config.deviceByte s.busTime a else 0 := by
  simp [busPeek, hb, backing_nes_high h]

/-- A write of `NESBus` above the work RAM (R56). -/
theorem busTakes_nes_high {s : State} {routed : List (Addr × Addr)} {a : Addr} (hb : s.bus = some (.nes routed))
    (h : ¬a.toNat ≤ 0x1FFF) :
    busTakes s a = if nesRouted routed a then Config.deviceTook s.busTime a else false := by
  simp [busTakes, hb, backing_nes_high h]

end Sys2Proof.Machine

namespace Sys2Proof.Proofs
open Sys2Proof.Machine

/-- Settles O43: a first `connect` is RESET on the installed bus, whose RAM holds `MEM_INIT`; the two vector reads are the
first two transactions. -/
theorem connectPerformsPowerOnReset : Obligations.ConnectPerformsPowerOnReset := by
  unfold Obligations.ConnectPerformsPowerOnReset
  intro b init s
  refine ⟨fun hnone => ?_, fun h => callConnect_alreadyConnected h b init⟩
  have hconnected : Connected (installed b init s) := rfl
  refine ⟨resetEntry (installed b init s), callConnect_of_none hnone b init, rfl, rfl,
    memWf_foldl_memPut init rfl, fun k => memRead_foldl_memPut k init rfl, getState_resetEntry _,
    rfl, rfl, rfl, rfl, rfl, rfl, rfl, rfl, busShape_resetEntry _, resetEntry (resetEntry (installed b init s)),
    ?_, rfl, rfl, rfl, rfl, fun ho => ?_⟩
  · exact whenConnected_of (s := resetEntry (installed b init s)) hconnected _
  · exact (getState_resetEntry_resetEntry hconnected (by simpa [installed] using ho)).symm

/-- Settles O46: on a connected core each of the four calls is its own rule, and each bus answers by the laws of
`busPeek`, `busTakes` and `backing`. -/
theorem snapshotsAndMemoryCalls : Obligations.SnapshotsAndMemoryCalls := by
  unfold Obligations.SnapshotsAndMemoryCalls
  intro s r a v h
  refine ⟨whenConnected_of h _, fun hf => callSetState_boundary h hf r, whenConnected_of h _, fun hwf => ?_, fun hb => ?_,
    fun routed hb => ?_, fun hb => ?_⟩
  · exact ⟨_, whenConnected_of h _, memoryAfter_one hwf rfl, rfl⟩
  · have hback : backing s.bus a = some a.toNat := by simp [backing, hb]
    exact ⟨busPeek_of_backing hback, busTakes_of_backing hback, hback⟩
  · split
    next hlow =>
      have hback : backing s.bus a = some (a &&& 0x07FF).toNat := hb ▸ backing_nes_low hlow
      exact ⟨busPeek_of_backing hback, busTakes_of_backing hback, hback⟩
    next hhigh =>
      rw [busPeek_nes_high hb hhigh, busTakes_nes_high hb hhigh]
      refine ⟨hb ▸ backing_nes_high hhigh, fun hmap => if_pos hmap, fun hq => ?_, fun hq => ?_⟩
      · rw [nesRouted_eq_false hhigh hq]
        exact ⟨rfl, fun hdev => if_neg (by omega)⟩
      · rw [(nesRouted_eq_true_iff hhigh).mpr hq]
        exact ⟨rfl, fun hdev => if_neg (by omega)⟩
  · simp [busPeek, busTakes, backing, hb]

end Sys2Proof.Proofs
end

section
/-! SUPPORT. The three kinds of cycle, and `run_instruction()` as the loop of them (40_fetch_execute.md R103, R104, R109,
R114). -/

namespace Sys2Proof.Machine

/-! ## The three kinds of cycle -/

/-- The base cycles that the fetch writes are those of the opcode at the PC (R105). -/
theorem fetchAndResolve_remainingCycles (s : State) :
    (fetchAndResolve s).remainingCycles = (descriptor (busPeek s s.pc)).baseCycles := by simp [fetchAndResolve]

theorem fetchAndResolve_desc (s : State) : (fetchAndResolve s).desc = some (descriptor (busPeek s s.pc)) := by
  simp [fetchAndResolve]

theorem fetchAndResolve_cyclesElapsed (s : State) : (fetchAndResolve s).cyclesElapsed = s.cyclesElapsed := by
  simp [fetchAndResolve]

theorem fetchAndResolve_inFlight (s : State) : (fetchAndResolve s).inFlight = true := by simp [fetchAndResolve]

theorem fetchOperand_withClock (m : Mode) (s : State) (c : Nat) : fetchOperand m { s with cyclesElapsed := c } =
    ((fetchOperand m s).1, { (fetchOperand m s).2 with cyclesElapsed := c }) := by cases m <;> rfl

theorem resolve_withClock (o : Operand) (s : State) (c : Nat) :
    resolve o { s with cyclesElapsed := c } = { resolve o s with cyclesElapsed := c } := by cases o <;> rfl

/-- The fetch neither reads nor writes the clock. -/
theorem fetchAndResolve_withClock (s : State) (c : Nat) :
    fetchAndResolve { s with cyclesElapsed := c } = { fetchAndResolve s with cyclesElapsed := c } := by
  have hbyte : fetchByte { s with cyclesElapsed := c } =
      ((fetchByte s).1, { (fetchByte s).2 with cyclesElapsed := c }) := rfl
  simp only [fetchAndResolve, hbyte, fetchOperand_withClock]
  exact resolve_withClock _ (enter _ _) c

/-- The state after an instruction's first cycle (R103, R105). -/
def firstCycle (s : State) : State :=
  { fetchAndResolve { s with cyclesElapsed := s.cyclesElapsed + 1 } with
    remainingCycles := (descriptor (busPeek s s.pc)).baseCycles - 1 }

/-- The state after a cycle that only counts (R104). -/
def countCycle (s : State) : State :=
  { s with cyclesElapsed := s.cyclesElapsed + 1, remainingCycles := s.remainingCycles - 1 }

section fetching
variable {s : State} (hf : s.inFlight = false) (hr : s.remainingCycles = 0)
include hf hr

theorem beforeExecute_eq_firstCycle : beforeExecute s = firstCycle s := by
  rw [beforeExecute_fetch hr hf, fetchAndResolve_remainingCycles]
  rfl

/-- The first cycle never runs the operation: every instruction has at least two base cycles. -/
theorem runsOperation_fetching : runsOperation s = false := by
  have := (descriptor_cycles (busPeek s s.pc)).1
  have hleft : (descriptor (busPeek s s.pc)).baseCycles - 1 ≠ 0 := by omega
  simp [runsOperation, beforeExecute_eq_firstCycle hf hr, firstCycle, hleft]

theorem runCycle_fetching : runCycle s = .next (firstCycle s) := by
  simp [runCycle, runsOperation_fetching hf hr, beforeExecute_eq_firstCycle hf hr]

end fetching

section counting
variable {s : State} (h : s.inFlight = false ∧ 1 ≤ s.remainingCycles ∨ s.inFlight = true ∧ 2 ≤ s.remainingCycles)
include h

theorem beforeExecute_eq_countCycle : beforeExecute s = countCycle s :=
  beforeExecute_wait (by rintro ⟨hr, hf⟩; simp [hf] at h; omega)

/-- A boundary has no operation to run, and before an instruction's last base cycle it is not yet due. -/
theorem runsOperation_counting : runsOperation s = false := by
  rw [runsOperation, beforeExecute_eq_countCycle h]
  obtain ⟨hf, -⟩ | ⟨-, hr⟩ := h
  · simp [countCycle, hf]
  · have hleft : s.remainingCycles - 1 ≠ 0 := by omega
    simp [countCycle, hleft]

theorem runCycle_counting : runCycle s = .next (countCycle s) := by
  simp [runCycle, runsOperation_counting h, beforeExecute_eq_countCycle h]

end counting

section executing
variable {s : State} (hf : s.inFlight = true) (hr : s.remainingCycles ≤ 1)
include hf hr

theorem beforeExecute_executing :
    beforeExecute s = { s with cyclesElapsed := s.cyclesElapsed + 1, remainingCycles := 0 } := by
  rw [beforeExecute_wait (by simp [hf]), Nat.sub_eq_zero_of_le hr]

theorem runsOperation_executing : runsOperation s = true := by
  simp [runsOperation, beforeExecute_executing hf hr, hf]

theorem runCycle_executing {d : Descriptor} (hd : s.desc = some d) :
    runCycle s = .next (executeOp (operationOf d.operation)
      { s with cyclesElapsed := s.cyclesElapsed + 1, remainingCycles := 0 }) := by
  rw [runCycle, if_pos (runsOperation_executing hf hr), beforeExecute_executing hf hr]
  simp [execute, hd]

end executing

/-! ## The loop of cycles -/

/-- The loop of `run_cycle`, from `s` on, ends in `t`: with any fuel of at least the cycles that it runs (R109). -/
def LoopEnds (executed : Bool) (s t : State) : Prop :=
  ∃ n, t.cyclesElapsed = s.cyclesElapsed + n ∧ ∀ fuel, n ≤ fuel → runLoop fuel executed s = .next t

/-- A cycle in which the loop does not end, and the loop from there on. -/
theorem LoopEnds.step {executed : Bool} {s u t : State} (hcycle : runCycle s = .next u)
    (hclock : u.cyclesElapsed = s.cyclesElapsed + 1)
    (hgo : ((executed || runsOperation s) && u.remainingCycles == 0) = false)
    (h : LoopEnds (executed || runsOperation s) u t) : LoopEnds executed s t := by
  obtain ⟨n, hn, hloop⟩ := h
  refine ⟨n + 1, by omega, fun fuel hfuel => ?_⟩
  obtain ⟨fuel, rfl⟩ := Nat.exists_eq_add_of_le' (Nat.le_of_add_left_le hfuel)
  simp only [runLoop, hcycle, hgo]
  exact hloop fuel (by omega)

/-- A cycle before any operation of this call has run. -/
theorem LoopEnds.before {s u t : State} (hcycle : runCycle s = .next u) (hclock : u.cyclesElapsed = s.cyclesElapsed + 1)
    (hrun : runsOperation s = false) (h : LoopEnds false u t) : LoopEnds false s t :=
  .step hcycle hclock (by simp [hrun]) (by rwa [hrun])

/-- The cycle in which the loop ends: an operation has run, and no cycle remains. -/
theorem LoopEnds.last {executed : Bool} {s t : State} (hcycle : runCycle s = .next t)
    (hclock : t.cyclesElapsed = s.cyclesElapsed + 1)
    (hend : ((executed || runsOperation s) && t.remainingCycles == 0) = true) : LoopEnds executed s t := by
  refine ⟨1, hclock, fun fuel hfuel => ?_⟩
  obtain ⟨fuel, rfl⟩ := Nat.exists_eq_add_of_le' hfuel
  simp only [runLoop, hcycle, hend, if_true]

theorem passCycles_countCycle {s : State} (h : 1 ≤ s.remainingCycles) : passCycles (countCycle s) = passCycles s := by
  have hclock : s.cyclesElapsed + 1 + (s.remainingCycles - 1) = s.cyclesElapsed + s.remainingCycles := by omega
  simp only [passCycles, countCycle, hclock]

theorem passCycles_of_zero {s : State} (h : s.remainingCycles = 0) : passCycles s = s := by
  cases s
  cases h
  rfl

/-- After the operation the extra cycles pass, and there the loop ends (R107, R109). -/
theorem loopEnds_extraCycles {r : Nat} {s : State} (hf : s.inFlight = false) (hr : s.remainingCycles = r + 1) :
    LoopEnds true s (passCycles s) := by
  induction r generalizing s with
  | zero =>
    have hcount : s.inFlight = false ∧ 1 ≤ s.remainingCycles := ⟨hf, by omega⟩
    have hpass : countCycle s = passCycles s := by simp [countCycle, passCycles, hr]
    rw [← hpass]
    exact .last (runCycle_counting (.inl hcount)) rfl (by simp [countCycle, hr])
  | succ r ih =>
    have hcount : s.inFlight = false ∧ 1 ≤ s.remainingCycles := ⟨hf, by omega⟩
    rw [← passCycles_countCycle hcount.2]
    exact .step (runCycle_counting (.inl hcount)) rfl (by simp [countCycle, hr])
      (ih (s := countCycle s) hf (by simp [countCycle, hr]))

/-- An instruction in flight: its remaining cycles, its operation in the last of them, and its extra cycles (R104, R106). -/
theorem loopEnds_inFlight {r : Nat} {s : State} {d : Descriptor} (hf : s.inFlight = true) (hd : s.desc = some d)
    (hr : s.remainingCycles = r + 1) : LoopEnds false s (passCycles (retire (operationOf d.operation) s)) := by
  induction r generalizing s with
  | zero =>
    have hlast : s.remainingCycles ≤ 1 := by omega
    have hcycle : runCycle s = .next (retire (operationOf d.operation) s) := by
      rw [runCycle_executing hf hlast hd, retire, passCycles, hr]
    have hclock : (retire (operationOf d.operation) s).cyclesElapsed = s.cyclesElapsed + 1 := by
      obtain ⟨-, -, -, -, hframe, -⟩ := operationOf_frame d.operation (passCycles s)
      exact hframe.trans (by simp [hr])
    cases hextra : (retire (operationOf d.operation) s).remainingCycles with
    | zero =>
      rw [passCycles_of_zero hextra]
      exact .last hcycle hclock (by simp [runsOperation_executing hf hlast, hextra])
    | succ e =>
      refine .step hcycle hclock (by simp [hextra]) ?_
      rw [runsOperation_executing hf hlast]
      exact loopEnds_extraCycles rfl hextra
  | succ r ih =>
    have hcount : s.inFlight = true ∧ 2 ≤ s.remainingCycles := ⟨hf, by omega⟩
    rw [retire, ← passCycles_countCycle (by omega : 1 ≤ s.remainingCycles), ← retire]
    exact .before (runCycle_counting (.inr hcount)) rfl (runsOperation_counting (.inr hcount))
      (ih (s := countCycle s) hf hd (by simp [countCycle, hr]))

theorem passCycles_firstCycle (s : State) : passCycles (firstCycle s) = passCycles (fetchAndResolve s) := by
  have := (descriptor_cycles (busPeek s s.pc)).1
  have hclock : s.cyclesElapsed + 1 + ((descriptor (busPeek s s.pc)).baseCycles - 1) =
      s.cyclesElapsed + (descriptor (busPeek s s.pc)).baseCycles := by omega
  simp only [passCycles, firstCycle, fetchAndResolve_withClock, fetchAndResolve_remainingCycles,
    fetchAndResolve_cyclesElapsed, hclock]

/-- From a boundary: the cycles left over pass, an instruction is fetched, and it runs as one in flight does (R104, R105). -/
theorem loopEnds_boundary {r : Nat} {s : State} (hf : s.inFlight = false) (hr : s.remainingCycles = r) :
    LoopEnds false s (passCycles
      (retire (operationOf (descriptor (busPeek s s.pc)).operation) (fetchAndResolve (passCycles s)))) := by
  induction r generalizing s with
  | zero =>
    have hbase := (descriptor_cycles (busPeek s s.pc)).1
    rw [passCycles_of_zero hr, retire, ← passCycles_firstCycle, ← retire]
    refine .before (runCycle_fetching hf hr) (fetchAndResolve_cyclesElapsed _) (runsOperation_fetching hf hr) ?_
    refine loopEnds_inFlight (r := (descriptor (busPeek s s.pc)).baseCycles - 2) (fetchAndResolve_inFlight _)
      (fetchAndResolve_desc _) ?_
    simp only [firstCycle]
    omega
  | succ r ih =>
    have hcount : s.inFlight = false ∧ 1 ≤ s.remainingCycles := ⟨hf, by omega⟩
    rw [← passCycles_countCycle hcount.2]
    exact .before (runCycle_counting (.inl hcount)) rfl (runsOperation_counting (.inl hcount))
      (ih (s := countCycle s) hf (by simp [countCycle, hr]))

/-- `run_instruction()` of a coherent core ends where the loop ends, at a boundary with no cycle left (R109, R114). -/
theorem runInstruction_eq_loop {s : State} (h : flightOk s = true) :
    ∃ t, runInstruction s = .next (reportCycles s t) ∧ t.remainingCycles = 0 ∧ t.inFlight = false ∧
      LoopEnds false s t := by
  cases hf : s.inFlight with
  | false => exact ⟨_, runInstruction_boundary hf, rfl, rfl, loopEnds_boundary hf rfl⟩
  | true =>
    have hd := desc_of_flightOk h hf
    have hleft := remainingCycles_of_flightOk h hf
    refine ⟨_, runInstruction_inFlight hf hd, rfl, rfl, ?_⟩
    rw [Nat.max_eq_right hleft]
    exact loopEnds_inFlight hf hd (Nat.sub_add_cancel hleft).symm

end Sys2Proof.Machine

namespace Sys2Proof.Proofs
open Sys2Proof.Machine

/-- Settles O47: the three kinds of cycle are exclusive, and each is its own law. -/
theorem oneClockOfTheCore : Obligations.OneClockOfTheCore := by
  unfold Obligations.OneClockOfTheCore
  exact fun s => ⟨runCycle_fetching, runCycle_counting, fun hf hr d hd => runCycle_executing hf hr hd⟩

/-- Settles O48: the loop counts the cycles that `run_instruction()` hands back, since each of its cycles adds one to the
clock. -/
theorem instructionStepIsTheCycleLoop : Obligations.InstructionStepIsTheCycleLoop := by
  unfold Obligations.InstructionStepIsTheCycleLoop
  intro s hs
  obtain ⟨t, hrun, hr, hf, n, hn, hloop⟩ := runInstruction_eq_loop hs.2
  have hcycles : t.cyclesElapsed - s.cyclesElapsed = n := by omega
  exact ⟨n, t, by rw [hrun, reportCycles, hcycles], hn, hr, hf, hloop⟩

end Sys2Proof.Proofs
end

section
/-! SUPPORT. The step at a boundary: what it fetches, and the call that it makes (40_fetch_execute.md R101, R105, R109). -/

namespace Sys2Proof.Machine

/-! ## The reads of the fetch, in order (R62, R105) -/

/-- The state in which a step at a boundary has read `n` bytes at the PC: ports cleared before them, waiting cycles passed,
PC past them. -/
def pastReads (n : Nat) (s : State) : State :=
  { s with
    pc := s.pc + BitVec.ofNat 16 n
    cyclesElapsed := s.cyclesElapsed + s.remainingCycles
    remainingCycles := 0
    busTime := s.busTime + n
    busLog := (List.range n).map
      (fun k => .read (s.pc + BitVec.ofNat 16 k) (peekAt k s (s.pc + BitVec.ofNat 16 k)))
    reply := none }

theorem passCycles_clearPorts (s : State) : passCycles (clearPorts s) = pastReads 0 s := by
  simp [passCycles, clearPorts, pastReads]

theorem fetchByte_pastReads (n : Nat) (s : State) :
    fetchByte (pastReads n s) = (peekAt n s (s.pc + BitVec.ofNat 16 n), pastReads (n + 1) s) := by
  rw [fetchByte_eq (s := s) (t := pastReads n s) n rfl rfl rfl]
  simp [pastReads, List.range_succ, BitVec.ofNat_add, BitVec.add_assoc, Nat.add_assoc]

theorem fetchWord_pastReads (n : Nat) (s : State) :
    fetchWord (pastReads n s) =
      (w16 (peekAt (n + 1) s (s.pc + BitVec.ofNat 16 (n + 1))) (peekAt n s (s.pc + BitVec.ofNat 16 n)),
        pastReads (n + 2) s) := by
  simp only [fetchWord, fetchByte_pastReads]

/-- How many bytes the fetch reads in a mode: the literal of IMM is left to the operation (R123). -/
def readBytes (m : Mode) : Nat := if m = .imm then 1 else m.operandBytes + 1

/-- The state in which a step at a boundary runs an instruction of a mode. -/
theorem afterFetch_eq {i : Instr} {op : Byte} (hop : i.opcode = some op) (s : State) :
    afterFetch i s = { pastReads (readBytes i.operand.mode) s with
      pc := s.pc + BitVec.ofNat 16 (i.operand.mode.operandBytes + 1) } := by
  have hlen : (encode i).length = i.operand.mode.operandBytes + 1 := by
    rw [encode_of_opcode hop]
    cases i.operand <;> rfl
  simp only [afterFetch, fetchReads, hlen, List.length_map, List.length_range]
  rfl

theorem fetchOperand_pastReads (m : Mode) (s : State) :
    fetchOperand m (pastReads 1 s) = (operandOf m (peekAt 1 s (s.pc + 1)) (peekAt 2 s (s.pc + 2)),
      { pastReads (readBytes m) s with pc := s.pc + BitVec.ofNat 16 (m.operandBytes + 1) }) := by
  cases m
  case imp | acc => rfl
  case imm =>
    simp only [fetchOperand, pastReads, BitVec.add_assoc]
    rfl
  case abs | abx | aby | ind =>
    simp only [fetchOperand, fetchWord_pastReads]
    rfl
  all_goals
    simp only [fetchOperand, fetchByte_pastReads]
    rfl

/-- The fetch at a boundary reads the instruction that the bytes at the PC decode to, and leaves the state `afterFetch`
(R81, R105). -/
theorem fetch_eq_afterFetch {s : State} {i : Instr} {rest : List Byte}
    (h : decode [peekAt 0 s s.pc, peekAt 1 s (s.pc + 1), peekAt 2 s (s.pc + 2)] = .ok (i, rest)) :
    fetch (passCycles (clearPorts s)) = (i, afterFetch i s) := by
  rw [decode_three_bytes] at h
  cases h
  obtain ⟨-, hop, hoperand⟩ := instrOf_law (peekAt 0 s s.pc) (peekAt 1 s (s.pc + 1)) (peekAt 2 s (s.pc + 2))
  simp only [fetch, passCycles_clearPorts, fetchByte_pastReads, BitVec.add_zero, Nat.zero_add, fetchOperand_pastReads,
    afterFetch_eq hop, hoperand, mode_operandOf]

end Sys2Proof.Machine

namespace Sys2Proof.Proofs
open Sys2Proof.Machine

/-- Settles O50: at a boundary with no call listed the step is `run_instruction()`, whose fetch leaves `afterFetch`. -/
theorem stepRunsTheDecodedInstruction : Obligations.StepRunsTheDecodedInstruction := by
  unfold Obligations.StepRunsTheDecodedInstruction
  intro s i rest h hcalls hf hdecode
  obtain ⟨op, b1, b2, hi, -⟩ := decode_eq_ok hdecode
  have hwf : i.wf = true := hi ▸ (instrOf_law op b1 b2).1
  refine ⟨hwf, _, exec_of_wf hwf _, ?_⟩
  have hboundary : (clearPorts s).inFlight = false := hf
  rw [step, hostStep, hcalls]
  simp only [callRunInstruction, whenConnected_of (s := clearPorts s) h, runInstruction, hboundary, runFromBoundary,
    fetch_eq_afterFetch hdecode, exec_of_wf hwf]
  rfl

/-- Settles O51: the ports are cleared and the call is taken off the host's list. -/
theorem stepMakesTheListedCall : Obligations.StepMakesTheListedCall := by
  unfold Obligations.StepMakesTheListedCall
  intro s c cs hcalls
  rw [step, hostStep, hcalls]
  rfl

end Sys2Proof.Proofs
end

section
/-! SUPPORT. What the fetch and the resolver leave, mode by mode, in the bytes that the bus shows and in numbers
(41_addressing_modes.md R121 to R136). -/

namespace Sys2Proof

/-! ## Resolved addresses in numbers (R9, R124 to R133) -/

theorem w16_eq_ofNat (h l : Byte) : w16 h l = BitVec.ofNat 16 (h.toNat * 256 + l.toNat) := by
  rw [← toNat_w16, BitVec.ofNat_toNat, BitVec.setWidth_eq]

/-- A zero-page address is the one page-0 address with its number (R124). -/
theorem zext16_eq_of_toNat {d : Byte} {z : Addr} (h : z.toNat = d.toNat) : zext16 d = z :=
  BitVec.eq_of_toNat_eq ((toNat_zext16 d).trans h.symm)

theorem zext16_eq_ofNat (d : Byte) : zext16 d = BitVec.ofNat 16 d.toNat :=
  zext16_eq_of_toNat (Nat.mod_eq_of_lt (Nat.lt_trans d.isLt (by decide)))

theorem zext16_add_eq_ofNat (d i : Byte) : zext16 (d + i) = BitVec.ofNat 16 ((d.toNat + i.toNat) % 256) := by
  rw [zext16_eq_ofNat, BitVec.toNat_add]

/-- An indexed address wraps modulo 65536 (R129). -/
theorem toNat_add_zext16 (w : Addr) (i : Byte) : (w + zext16 i).toNat = (w.toNat + i.toNat) % 65536 := by
  rw [BitVec.toNat_add, toNat_zext16]

theorem add_zext16_eq_ofNat (w : Addr) (i : Byte) : w + zext16 i = BitVec.ofNat 16 ((w.toNat + i.toNat) % 65536) := by
  rw [← toNat_add_zext16, BitVec.ofNat_toNat, BitVec.setWidth_eq]

/-- The address of the second operand byte is reached in two steps of PC. -/
theorem add_one_add_one (a : Addr) : a + 1 + 1 = a + 2 := BitVec.add_assoc ..

/-- Sign extension adds 0xFF00 to a byte whose bit 7 is set (R127). -/
theorem sext16_eq_ofNat (d : Byte) :
    sext16 d = BitVec.ofNat 16 (if d.toNat < 128 then d.toNat else d.toNat + 0xFF00) := by
  have hd := d.isLt
  apply BitVec.eq_of_toNat_eq
  rw [sext16, BitVec.toNat_signExtend, BitVec.msb_eq_decide, BitVec.toNat_setWidth, BitVec.toNat_ofNat]
  simp only [decide_eq_true_eq]
  split_ifs <;> omega

end Sys2Proof

namespace Sys2Proof.Machine

/-- The page-cross condition of an indexed address, in numbers (R135). -/
theorem crosses_add_zext16 (w : Addr) (i : Byte) :
    crosses w (w + zext16 i) = decide ((w.toNat + i.toNat) % 65536 / 256 ≠ w.toNat / 256) := by
  rw [crosses_eq, toNat_add_zext16]

/-- The address of IND's high byte, in numbers: the first byte of the page follows its last one (R131). -/
theorem toNat_indHigh (w : Addr) :
    (indHigh w).toNat = if w.toNat % 256 = 0xFF then w.toNat - 0xFF else w.toNat + 1 := by
  have hw := w.isLt
  have hlo : lo w = 0xFF ↔ w.toNat % 256 = 0xFF := by
    rw [← BitVec.toNat_inj, toNat_lo]
    rfl
  rw [indHigh_eq]
  by_cases h : w.toNat % 256 = 0xFF
  · rw [if_pos (hlo.mpr h), if_pos h, BitVec.toNat_sub]
    change (2 ^ 16 - 0xFF + w.toNat) % 2 ^ 16 = _
    omega
  · rw [if_neg (mt hlo.mp h), if_neg h, BitVec.toNat_add]
    change (w.toNat + 1) % 2 ^ 16 = _
    omega

/-! ## The resolver -/

/-- The reads by which the resolver fetches a pointer, its low byte first (R131 to R133, log entry 18). -/
def pointerReads (o : Operand) (s : State) : List Txn :=
  match o with
  | .ind w => [.read w (peekAt 0 s w), .read (indHigh w) (peekAt 1 s (indHigh w))]
  | .izx d => [.read (zext16 (d + s.x)) (peekAt 0 s (zext16 (d + s.x))),
      .read (zext16 (d + s.x + 1)) (peekAt 1 s (zext16 (d + s.x + 1)))]
  | .izy d => [.read (zext16 d) (peekAt 0 s (zext16 d)), .read (zext16 (d + 1)) (peekAt 1 s (zext16 (d + 1)))]
  | _ => []

/-- The pointer reads are the resolver's only transactions (R134). -/
theorem resolve_busLog (o : Operand) (s : State) : (resolve o s).busLog = s.busLog ++ pointerReads o s := by
  cases o
  case ind | izx | izy => exact busReadWord_busLog s _ _
  all_goals exact (List.append_nil _).symm

theorem resolve_busTime (o : Operand) (s : State) :
    (resolve o s).busTime = s.busTime + (if o.mode ∈ [Mode.ind, .izx, .izy] then 2 else 0) := by
  cases o <;> rfl

theorem txnShape_pointerReads {o : Operand} {s : State} {r : Txn} (h : r ∈ pointerReads o s) : (txnShape r).1 = false := by
  cases o
  case ind | izx | izy =>
    simp only [pointerReads, List.mem_cons, List.not_mem_nil, or_false] at h
    rcases h with rfl | rfl <;> rfl
  all_goals cases h

/-- The address that IZY indexes is the word at its pointer (R133). -/
theorem resolve_izy_pageCrossed (d : Byte) (s : State) : (resolve (.izy d) s).pageCrossed =
    decide (((peekAt 1 s (zext16 (d + 1))).toNat * 256 + (peekAt 0 s (zext16 d)).toNat + s.y.toNat) % 65536 / 256 ≠
      (peekAt 1 s (zext16 (d + 1))).toNat) := by
  have hhigh : (w16 (peekAt 1 s (zext16 (d + 1))) (peekAt 0 s (zext16 d))).toNat / 256 =
      (peekAt 1 s (zext16 (d + 1))).toNat := by
    rw [← toNat_hi, hi_w16]
  rw [← toNat_w16, ← hhigh]
  exact crosses_add_zext16 _ s.y

/-! ## The fetch (R81, R105) -/

/-- The operand of a mode in the bytes after the opcode at the PC. -/
def operandAt (m : Mode) (s : State) : Operand := operandOf m (peekAt 1 s (s.pc + 1)) (peekAt 2 s (s.pc + 2))

/-- The state in which the resolver runs when an opcode of mode `m` stands at the PC: the instruction's bytes passed. -/
def decoded (m : Mode) (s : State) : State := enter (peekAt 0 s s.pc) (fetchOperand m (fetchByte s).2).2

/-- The reads of an opcode of mode `m` and its operand bytes, but not of the literal of IMM (R123, log entry 15). -/
def pcReads (m : Mode) (s : State) : List Txn :=
  [.read s.pc (peekAt 0 s s.pc), .read (s.pc + 1) (peekAt 1 s (s.pc + 1)),
    .read (s.pc + 2) (peekAt 2 s (s.pc + 2))].take (readBytes m)

theorem txnShape_pcReads {m : Mode} {s : State} {r : Txn} (h : r ∈ pcReads m s) : (txnShape r).1 = false := by
  have hbytes := List.mem_of_mem_take h
  simp only [List.mem_cons, List.not_mem_nil, or_false] at hbytes
  rcases hbytes with rfl | rfl | rfl <;> rfl

theorem fetchOperand_fetchByte_fst (m : Mode) (s : State) : (fetchOperand m (fetchByte s).2).1 = operandAt m s := by
  cases m
  case abs | abx | aby | ind =>
    simp only [fetchOperand, fetchWord_fst, fetchByte_pc, add_one_add_one]
    rfl
  all_goals rfl

/-- The fetch of an opcode of mode `m` is its decoding, and the resolver on its operand (R105). -/
theorem fetchAndResolve_of_mode {m : Mode} {s : State} (h : (descriptor (peekAt 0 s s.pc)).mode = m) :
    fetchAndResolve s = resolve (operandAt m s) (decoded m s) := by
  subst h
  rw [← fetchOperand_fetchByte_fst]
  rfl

theorem decoded_pc (m : Mode) (s : State) : (decoded m s).pc = s.pc + BitVec.ofNat 16 (m.operandBytes + 1) := by
  have hthree : s.pc + 1 + 1 + 1 = s.pc + 3 := by
    rw [add_one_add_one]
    exact BitVec.add_assoc ..
  cases m
  case imp | acc => rfl
  case abs | abx | aby | ind => exact hthree
  all_goals exact add_one_add_one s.pc

theorem decoded_busLog (m : Mode) (s : State) : (decoded m s).busLog = s.busLog ++ pcReads m s := by
  cases m
  case imp | acc | imm => rfl
  case abs | abx | aby | ind =>
    simp only [decoded, enter_busLog, fetchOperand, fetchWord_busLog, fetchByte_busLog, fetchByte_pc, add_one_add_one,
      List.append_assoc]
    rfl
  all_goals exact List.append_assoc ..

section ofMode
variable {m : Mode} {s : State} (h : (descriptor (peekAt 0 s s.pc)).mode = m)
include h

/-- PC passes the opcode and the operand bytes of its mode (R81, R82). -/
theorem fetchAndResolve_pc : (fetchAndResolve s).pc = s.pc + BitVec.ofNat 16 (m.operandBytes + 1) := by
  rw [fetchAndResolve_of_mode h, resolve_pc, decoded_pc]

/-- The bytes of the instruction are read first, then those of its pointer (R105, R134). -/
theorem fetchAndResolve_busLog :
    (fetchAndResolve s).busLog = s.busLog ++ (pcReads m s ++ pointerReads (operandAt m s) (decoded m s)) := by
  rw [fetchAndResolve_of_mode h, resolve_busLog, decoded_busLog, List.append_assoc]

/-- No page is crossed but in the modes ABX, ABY and IZY (R135). -/
theorem fetchAndResolve_pageCrossed (hm : mayCross m = false) : (fetchAndResolve s).pageCrossed = false := by
  rw [fetchAndResolve_of_mode h]
  refine (pageCrossed_resolve (operandAt m s) (s := decoded m s) rfl).resolve_right ?_
  simp [operandAt, hm]

end ofMode

/-! ## The operand byte (R40) -/

/-- A load through `MEM(a)` reads the bus after the two reads of a pointer, if the mode has one (R40). -/
theorem operandByte_of_mem {i : Instr} {s : State} {a : Addr} (h : (atOperation i s).operandRef = .mem a) :
    operandByte i s = peekAt (if i.operand.mode ∈ [Mode.ind, .izx, .izy] then 2 else 0) s a := by
  rw [operandByte, load_of_mem h, busRead_fst]
  exact busPeek_eq_peekAt _ a (by simp) (by simp) (resolve_busTime i.operand (enter _ s))

/-- A load through `REG_A` makes no transaction (R40). -/
theorem operandByte_of_regA {i : Instr} {s : State} (h : (atOperation i s).operandRef = .regA) :
    operandByte i s = s.a := by
  rw [operandByte, load_of_regA h, atOperation_a]

end Sys2Proof.Machine

namespace Sys2Proof.Proofs
open Sys2Proof.Machine

/-- Settles O6: the resolver's arms for IMP, ACC and IMM, on the PC and the reads of the fetch. -/
theorem impliedAccumulatorImmediateModes : Obligations.ImpliedAccumulatorImmediateModes := by
  unfold Obligations.ImpliedAccumulatorImmediateModes
  intro s
  refine ⟨?_, fun h => ⟨?_, fetchAndResolve_pc h⟩, ?_⟩
  · rintro (h | h) <;> exact ⟨by rw [fetchAndResolve_of_mode h]; rfl, fetchAndResolve_pc h⟩
  · rw [fetchAndResolve_of_mode h]
    exact congrArg OperandRef.mem (BitVec.add_sub_cancel (s.pc + 1) 1)
  · simp only [List.mem_cons, List.not_mem_nil, or_false]
    rintro (h | h | h) <;> exact ⟨fetchAndResolve_pageCrossed h rfl, fetchAndResolve_busLog h⟩

/-- Settles O7: a zero-page address is an 8-bit sum, so an index wraps inside page 0. -/
theorem zeroPageModes : Obligations.ZeroPageModes := by
  unfold Obligations.ZeroPageModes
  intro s
  refine ⟨fun h => ?_, fun h => ?_, fun h => ?_, ?_⟩
  · rw [fetchAndResolve_of_mode h]
    exact congrArg OperandRef.mem (zext16_eq_ofNat _)
  · rw [fetchAndResolve_of_mode h]
    exact congrArg OperandRef.mem (zext16_add_eq_ofNat _ s.x)
  · rw [fetchAndResolve_of_mode h]
    exact congrArg OperandRef.mem (zext16_add_eq_ofNat _ s.y)
  · simp only [List.mem_cons, List.not_mem_nil, or_false]
    rintro (h | h | h) <;>
      exact ⟨fetchAndResolve_pageCrossed h rfl, fetchAndResolve_pc h, fetchAndResolve_busLog h⟩

/-- Settles O8: the resolver's arm for REL, whose offset is the sign extension in numbers. -/
theorem relativeMode : Obligations.RelativeMode := by
  unfold Obligations.RelativeMode
  intro s h
  refine ⟨?_, ?_, fetchAndResolve_pageCrossed h rfl, fetchAndResolve_pc h, fetchAndResolve_busLog h⟩
  · rw [fetchAndResolve_of_mode h]
    exact sext16_eq_ofNat _
  · rw [fetchAndResolve_of_mode h]
    rfl

/-- Settles O9: the base is the word after the opcode; the indexed address and the page cross are those of 16-bit sums. -/
theorem absoluteModes : Obligations.AbsoluteModes := by
  unfold Obligations.AbsoluteModes
  intro s base hbase
  rw [← toNat_w16] at hbase
  subst hbase
  refine ⟨fun h => ⟨?_, fetchAndResolve_pageCrossed h rfl⟩, fun h => ?_, fun h => ?_, ?_⟩
  · rw [fetchAndResolve_of_mode h, BitVec.ofNat_toNat, BitVec.setWidth_eq]
    rfl
  · rw [fetchAndResolve_of_mode h]
    exact ⟨congrArg OperandRef.mem (add_zext16_eq_ofNat _ s.x), crosses_add_zext16 _ s.x⟩
  · rw [fetchAndResolve_of_mode h]
    exact ⟨congrArg OperandRef.mem (add_zext16_eq_ofNat _ s.y), crosses_add_zext16 _ s.y⟩
  · simp only [List.mem_cons, List.not_mem_nil, or_false]
    rintro (h | h | h) <;> exact ⟨fetchAndResolve_pc h, fetchAndResolve_busLog h⟩

/-- Settles O10: the given pointers are the word after the opcode and its successor within the page. -/
theorem indirectModeStaysInPage : Obligations.IndirectModeStaysInPage := by
  unfold Obligations.IndirectModeStaysInPage
  intro s ptr ptr' h hptr hptr'
  rw [← toNat_w16, BitVec.toNat_inj] at hptr
  rw [← toNat_indHigh, BitVec.toNat_inj] at hptr'
  subst hptr hptr'
  refine ⟨?_, fetchAndResolve_pageCrossed h rfl, fetchAndResolve_pc h, fetchAndResolve_busLog h⟩
  rw [fetchAndResolve_of_mode h]
  exact congrArg OperandRef.mem (w16_eq_ofNat _ _)

/-- Settles O11: the given pointers are 8-bit sums; what they point to is read in the fetch's third and fourth transaction. -/
theorem zeroPagePointerModes : Obligations.ZeroPagePointerModes := by
  unfold Obligations.ZeroPagePointerModes
  rintro s d z z' y y' rfl hz hz' hy hy'
  obtain rfl := zext16_eq_of_toNat (d := peekAt 1 s (s.pc + 1) + s.x) (hz.trans (BitVec.toNat_add ..).symm)
  obtain rfl := zext16_eq_of_toNat (d := peekAt 1 s (s.pc + 1) + s.x + 1) (z := z') (by simp [hz'])
  obtain rfl := zext16_eq_of_toNat hy
  obtain rfl := zext16_eq_of_toNat (d := peekAt 1 s (s.pc + 1) + 1) (z := y') (hy'.trans (BitVec.toNat_add _ 1).symm)
  refine ⟨fun h => ⟨?_, fetchAndResolve_pageCrossed h rfl, fetchAndResolve_pc h, fetchAndResolve_busLog h⟩,
    fun h => ⟨?_, ?_, fetchAndResolve_pc h, fetchAndResolve_busLog h⟩⟩
  · rw [fetchAndResolve_of_mode h]
    exact congrArg OperandRef.mem (w16_eq_ofNat _ _)
  · rw [fetchAndResolve_of_mode h, ← toNat_w16]
    exact congrArg OperandRef.mem (add_zext16_eq_ofNat _ s.y)
  · rw [fetchAndResolve_of_mode h]
    exact resolve_izy_pageCrossed _ (decoded .izy s)

/-- Settles O12: every register but PC, the memory and the host's side by their field laws; every transaction is a read of
the instruction or of its pointer. -/
theorem resolverWritesOnlyPc : Obligations.ResolverWritesOnlyPc := by
  unfold Obligations.ResolverWritesOnlyPc
  intro s
  refine ⟨?_, fetchAndResolve_mem s, ?_, _, fetchAndResolve_busLog rfl, fun r hr => ?_⟩
  · simp [getState, fetchAndResolve]
  · simp [sameOutside, fetchAndResolve]
  · rcases List.mem_append.mp hr with hr | hr
    · exact txnShape_pcReads hr
    · exact txnShape_pointerReads hr

/-- Settles O13: the resolver's arm for each operand form, run in a state that shows the bus as `s` does. -/
theorem operandReferenceOfEveryForm : Obligations.OperandReferenceOfEveryForm := by
  unfold Obligations.OperandReferenceOfEveryForm
  intro i s _
  refine ⟨?_, ?_, ?_, fun a => operandByte_of_mem, operandByte_of_regA⟩
  · unfold atOperation
    cases i.operand
    case ind w =>
      simp only [← indHigh_eq]
      rfl
    all_goals rfl
  · rw [atOperation, passCycles_pageCrossed]
    cases i.operand
    case abx w | aby w =>
      simp only [resolve, setIndexed_pageCrossed, crosses_add_zext16, decide_eq_true_iff]
      rfl
    case izy d =>
      rw [resolve_izy_pageCrossed]
      exact decide_eq_true_iff
    all_goals exact iff_of_false Bool.false_ne_true id
  · unfold atOperation
    cases i.operand <;> rfl

end Sys2Proof.Proofs
end

section
/-! SUPPORT. Completing an instruction by the effect of its operation alone, and the completions of loads, stores and
transfers (42_load_store_transfer.md R141 to R152). -/

namespace Sys2Proof.Machine

/-! ## The six registers -/

@[simp] theorem getState_atOperation (i : Instr) (s : State) : getState (atOperation i s) = getState s := by
  simp [getState]

@[simp] theorem getState_load (s : State) : getState (load s).2 = getState s := by simp [getState]

@[simp] theorem getState_putA (v : Byte) (s : State) :
    getState (putA v s) = { getState s with a := v, p := setZN v s.p } := rfl

@[simp] theorem getState_putX (v : Byte) (s : State) :
    getState (putX v s) = { getState s with x := v, p := setZN v s.p } := rfl

@[simp] theorem getState_putY (v : Byte) (s : State) :
    getState (putY v s) = { getState s with y := v, p := setZN v s.p } := rfl

/-! ## Completing -/

/-- The registers, the memory and the extra cycles after the operation are all that tells one completion from another: the
frame of every operation gives the rest. -/
theorem completes_of_effect {i : Instr} {s t : State} {r : Snapshot} {writes : List (Addr × Byte)} {extra : Nat}
    (hw : i.wf = true) (hop : operationOf i.operation (atOperation i s) = (t, extra)) (hr : getState t = r)
    (hm : memoryAfter writes s t) : Completes i s r writes extra := by
  obtain ⟨hcfg, hbus, hcalls, hreply, hclock, hcycles, -⟩ := operationOf_frame i.operation (atOperation i s)
  obtain rfl : (operationOf i.operation (atOperation i s)).1 = t := congrArg Prod.fst hop
  exact completes_of_operation hw (operationOf i.operation) rfl hr hm
    (by simp [sameOutside, hcfg, hbus, hcalls, hreply]) (congrArg Prod.snd hop) (by simp [hclock]) (by simp [hcycles])

/-- The stores have no mode that gives `REG_A` (R144 to R146). -/
theorem atOperation_mem_of_store {i : Instr} (s : State) (hw : i.wf = true)
    (ho : i.operation ∈ [Operation.sta, .stx, .sty]) : ∃ a, (atOperation i s).operandRef = .mem a := by
  have hstores : i.operation ∈ storesOperand ∧ i.operation ∉ [Operation.asl, .lsr, .rol, .ror] := by
    revert ho
    generalize i.operation = op
    cases op <;> decide
  exact atOperation_mem_of_mode (mode_of_storesOperand hw hstores.1 fun h => hstores.2 h.1)

/-- A store completes with one bus write, at the address of its OperandRef (R40). -/
theorem completes_store {i : Instr} {s : State} {v : Byte} (hmem : memWf s.bus s.mem = true) (hw : i.wf = true)
    (ho : i.operation ∈ [Operation.sta, .stx, .sty])
    (hop : operationOf i.operation (atOperation i s) = (store v (atOperation i s), 0)) :
    ∃ a, (atOperation i s).operandRef = .mem a ∧ Completes i s (getState s) [(a, v)] 0 := by
  obtain ⟨a, ha⟩ := atOperation_mem_of_store s hw ho
  rw [store_of_mem ha] at hop
  exact ⟨a, ha, completes_of_effect hw hop (getState_atOperation i s) (memoryAfter_one hmem (by simp))⟩

end Sys2Proof.Machine

namespace Sys2Proof.Proofs
open Sys2Proof.Machine

/-- Settles O14: the byte loaded through the OperandRef goes into the register, and the extra cycle is `penalty`. -/
theorem loadsPutTheOperandIntoTheRegister : Obligations.LoadsPutTheOperandIntoTheRegister := by
  unfold Obligations.LoadsPutTheOperandIntoTheRegister
  intro o s
  refine ⟨fun hw => ?_, fun hw => ?_, fun hw => ?_⟩ <;>
    exact completes_of_effect hw rfl (by simp [operandByte]) (memoryAfter_nil (by simp))

/-- Settles O15: each store is `store` of its register, which fetching and resolving left as it was. -/
theorem storesWriteTheRegister : Obligations.StoresWriteTheRegister := by
  unfold Obligations.StoresWriteTheRegister
  intro o s hmem
  refine ⟨fun hw => ?_, fun hw => ?_, fun hw => ?_⟩
  · exact completes_store hmem hw (by simp [Instr.operation]) (by simp [Instr.operation, operationOf, opSta])
  · exact completes_store hmem hw (by simp [Instr.operation]) (by simp [Instr.operation, operationOf, opStx])
  · exact completes_store hmem hw (by simp [Instr.operation]) (by simp [Instr.operation, operationOf, opSty])

/-- Settles O16: a transfer resolves no operand, so its operation finds the registers and the memory of `s`. -/
theorem transfersCopyARegister : Obligations.TransfersCopyARegister := by
  unfold Obligations.TransfersCopyARegister
  intro s
  refine ⟨?_, ?_, ?_, ?_, ?_, ?_⟩ <;> exact completes_of_effect rfl rfl rfl (memoryAfter_nil rfl)

end Sys2Proof.Proofs
end

section
/-! SUPPORT. The completions of the instructions that push or pop one byte (10_state.md R34 to R36; 43_stack.md R156 to
R159). -/

namespace Sys2Proof.Machine

@[simp] theorem getState_push (v : Byte) (s : State) : getState (push v s) = { getState s with sp := s.sp - 1 } := rfl

/-- An operation whose operand was resolved without a transaction finds the bus as it was in `s` (R134). -/
theorem busPeek_atOperation {i : Instr} (s : State) (a : Addr) (h : i.operand.mode ∉ [Mode.ind, .izx, .izy]) :
    busPeek (atOperation i s) a = peekAt 0 s a :=
  busPeek_eq_peekAt 0 a (by simp) (by simp) (atOperation_busTime s h).1

/-- An instruction that pushes one byte completes with one bus write, at the stack address (R35). -/
theorem completes_push {i : Instr} {s : State} {v : Byte} (hmem : memWf s.bus s.mem = true) (hw : i.wf = true)
    (hop : operationOf i.operation (atOperation i s) = (push v (atOperation i s), 0)) :
    Completes i s { getState s with sp := s.sp - 1 } [(stackAddr s.sp, v)] 0 :=
  completes_of_effect hw hop (by simp) (memoryAfter_one hmem (by simp))

/-- What PLA leaves in the six registers (R158). -/
theorem getState_opPla (s : State) :
    getState (opPla s).1 = { getState s with
      sp := s.sp + 1
      a := busPeek s (stackAddr (s.sp + 1))
      p := setZN (busPeek s (stackAddr (s.sp + 1))) s.p } := rfl

/-- What PLP leaves in the six registers (R159). -/
theorem getState_opPlp (s : State) :
    getState (opPlp s).1 = { getState s with
      sp := s.sp + 1
      p := pulledP s.p (busPeek s (stackAddr (s.sp + 1))) } := rfl

end Sys2Proof.Machine

namespace Sys2Proof.Proofs
open Sys2Proof.Machine

/-- Settles O17: each push is one write at the stack address; each pull reads there what the bus shows in `s`, because an
implied operand makes no transaction. -/
theorem stackInstructionsPushAndPull : Obligations.StackInstructionsPushAndPull := by
  unfold Obligations.StackInstructionsPushAndPull
  intro s hmem
  refine ⟨?_, ?_, ?_, ?_⟩
  · exact completes_push hmem rfl (by simp [Instr.operation, operationOf, opPha])
  · exact completes_push hmem rfl (by simp [Instr.operation, operationOf, opPhp, pushedPsw])
  · refine completes_of_effect rfl rfl ?_ (memoryAfter_nil rfl)
    rw [← busPeek_atOperation (i := .pla) s _ (by decide)]
    exact getState_opPla (atOperation .pla s)
  · refine completes_of_effect rfl rfl ?_ (memoryAfter_nil rfl)
    rw [← busPeek_atOperation (i := .plp) s _ (by decide)]
    exact getState_opPlp (atOperation .plp s)

end Sys2Proof.Proofs
end

section
/-! SUPPORT. The completions of AND, ORA, EOR, ADC and SBC (44_logic_arith.md R164 to R169). -/

namespace Sys2Proof.Machine

@[simp] theorem getState_putResult (r : AdderResult) (s : State) :
    getState (putResult r s) = { getState s with a := r.res, p := putSum r s.p } := rfl

/-- 0xEB and 0xE9 bring the core to the same state but for what it decoded: their base cycles and operand agree (R90, R169). -/
theorem atOperation_sbcEB (d : Byte) (s : State) :
    atOperation (.sbcEB (.imm d)) s =
      { atOperation (.sbc (.imm d)) s with opcode := 0xEB, desc := some (descriptor 0xEB) } := by
  have hcycles : (descriptor 0xEB).baseCycles = (descriptor 0xE9).baseCycles := by decide
  have hcodes : (Instr.sbcEB (.imm d)).opcode = some 0xEB ∧ (Instr.sbc (.imm d)).opcode = some 0xE9 := ⟨rfl, rfl⟩
  simp only [atOperation, hcodes, Option.getD_some, Instr.operand, passCycles, resolve, setRef, enter, hcycles]

/-- SBC looks neither at the opcode nor at the descriptor in flight. -/
theorem opSbc_withDescriptor (s : State) (op : Byte) (d : Option Descriptor) :
    opSbc { s with opcode := op, desc := d } = ({ (opSbc s).1 with opcode := op, desc := d }, (opSbc s).2) := by
  dsimp only [opSbc, load]
  split <;> rfl

end Sys2Proof.Machine

namespace Sys2Proof.Proofs
open Sys2Proof.Machine

/-- Settles O19: the operand joins A bit by bit, and the extra cycle is `penalty`. -/
theorem logicInstructions : Obligations.LogicInstructions := by
  unfold Obligations.LogicInstructions
  intro o s
  refine ⟨fun hw => ?_, fun hw => ?_, fun hw => ?_⟩ <;>
    exact completes_of_effect hw rfl (by simp [operandByte]) (memoryAfter_nil (by simp))

/-- Settles O20: the operation puts `adcSum` or `sbcSum` of A and the operand into A and P, and those choose the algorithm by
`DECIMAL_MODE` and D. -/
theorem addAndSubtractInstructions : Obligations.AddAndSubtractInstructions := by
  unfold Obligations.AddAndSubtractInstructions
  intro o s r
  refine ⟨fun hw hr => ?_, fun hw hr => ?_⟩
  · have hsum : adcSum s.cfg s.p s.a (load (atOperation (.adc o) s)).1 = r := by
      simp [adcSum, hr, operandByte]
    exact completes_of_effect hw rfl (by simp [hsum, putSum]) (memoryAfter_nil (by simp [putResult]))
  · have hsum : sbcSum s.cfg s.p s.a (load (atOperation (.sbc o) s)).1 = r := by
      simp [sbcSum, hr, operandByte]
    exact completes_of_effect hw rfl (by simp [hsum, putSum]) (memoryAfter_nil (by simp [putResult]))

/-- Settles O21: both run the same operation, and it does not look at what tells the two states apart. -/
theorem undocumentedSbcIsSbcImmediate : Obligations.UndocumentedSbcIsSbcImmediate := by
  unfold Obligations.UndocumentedSbcIsSbcImmediate
  intro d s
  refine ⟨_, exec_of_wf rfl s, ?_⟩
  rw [exec_of_wf rfl, atOperation_sbcEB]
  simp only [Instr.operation, operationOf, executeOp, opSbc_withDescriptor]

end Sys2Proof.Proofs
end

section
/-! SUPPORT. The binary adder as numbers (44_logic_arith.md R163, R168, R171). -/

namespace Sys2Proof.Machine

theorem carryIn_eq_toNat (c : Bool) : carryIn c = c.toNat := by cases c <;> rfl

/-! ## The sign of a byte -/

/-- Bit 7 of a byte stands alone under the mask 0x80. -/
theorem and_0x80_eq_zero_iff (x : Byte) : x &&& 0x80 = 0 ↔ x.msb = false := by
  change x &&& BitVec.twoPow 8 7 = 0 ↔ _
  rw [BitVec.and_twoPow, BitVec.msb_eq_getLsbD_last]
  cases x.getLsbD 7 <;> simp

/-- The exclusive or of two bytes has bit 7 clear when their signs agree. -/
theorem xor_and_0x80_eq_zero_iff (x y : Byte) : (x ^^^ y) &&& 0x80 = 0 ↔ (128 ≤ x.toNat ↔ 128 ≤ y.toNat) := by
  rw [and_0x80_eq_zero_iff, BitVec.msb_xor, BitVec.msb_eq_decide, BitVec.msb_eq_decide]
  simp

/-- Bit 7 of a byte, in numbers. -/
theorem getLsbD_seven (x : Byte) : x.getLsbD 7 = decide (128 ≤ x.toNat) := by
  rw [← BitVec.msb_eq_decide x, BitVec.msb_eq_getLsbD_last]

theorem toInt_byte (x : Byte) : x.toInt = if x.toNat < 128 then (x.toNat : Int) else x.toNat - 256 := by
  rw [BitVec.toInt_eq_toNat_cond]
  split_ifs <;> omega

theorem toInt_not_byte (x : Byte) : (~~~x).toInt = -1 - x.toInt := by
  have hx := x.isLt
  rw [toInt_byte, toInt_byte, BitVec.toNat_not]
  split_ifs <;> omega

/-! ## Sum, carry and overflow -/

section
variable (a m : Byte) (c : Bool)

theorem toNat_add8_res : (add8 a m c).res.toNat = (a.toNat + m.toNat + c.toNat) % 256 := by
  simp [add8, carryIn_eq_toNat]

theorem add8_c_iff : (add8 a m c).c = true ↔ a.toNat + m.toNat + c.toNat > 0xFF := by
  simp [add8, carryIn_eq_toNat]

theorem add8_z_iff : (add8 a m c).z = true ↔ (a.toNat + m.toNat + c.toNat) % 256 = 0 := by
  rw [← toNat_add8_res]
  change ((add8 a m c).res == 0) = true ↔ _
  rw [beq_iff_eq, BitVec.toNat_eq]
  rfl

theorem add8_n_iff : (add8 a m c).n = true ↔ 128 ≤ (a.toNat + m.toNat + c.toNat) % 256 := by
  rw [← toNat_add8_res]
  change (add8 a m c).res.getLsbD 7 = true ↔ _
  rw [getLsbD_seven, decide_eq_true_iff]

theorem add8_v_iff : (add8 a m c).v = true ↔ (a ^^^ (add8 a m c).res) &&& 0x80 ≠ 0 ∧ (a ^^^ m) &&& 0x80 = 0 := by
  simp [add8]

/-- The flag V tells that the signed sum leaves the range of a signed byte (R163). -/
theorem add8_v_iff_overflow :
    (add8 a m c).v = true ↔ a.toInt + m.toInt + (c.toNat : Int) < -128 ∨ 127 < a.toInt + m.toInt + (c.toNat : Int) := by
  have ha := a.isLt
  have hm := m.isLt
  have hc := c.toNat_le
  rw [add8_v_iff, ne_eq, xor_and_0x80_eq_zero_iff, xor_and_0x80_eq_zero_iff, toNat_add8_res, toInt_byte, toInt_byte]
  split_ifs <;> omega

/-- The adder on the complement of `m` is the subtraction of `m` with a borrow (R168). -/
theorem add8_not_res : (add8 a (~~~m) c).res = a - m - (if c then 0 else 1) := by
  have hm := m.isLt
  apply BitVec.eq_of_toNat_eq
  rw [toNat_add8_res, BitVec.toNat_not, BitVec.toNat_sub, BitVec.toNat_sub]
  cases c <;> simp <;> omega

/-- No borrow occurs when the subtrahend and the borrow that comes in do not exceed A (R168). -/
theorem add8_not_c_iff : (add8 a (~~~m) c).c = true ↔ m.toNat + (if c then 0 else 1) ≤ a.toNat := by
  have hm := m.isLt
  rw [add8_c_iff, BitVec.toNat_not]
  cases c <;> simp <;> omega

theorem add8_not_v_iff_overflow : (add8 a (~~~m) c).v = true ↔
    a.toInt - m.toInt - (if c then 0 else 1) < -128 ∨ 127 < a.toInt - m.toInt - (if c then 0 else 1) := by
  rw [add8_v_iff_overflow, toInt_not_byte]
  cases c <;> simp <;> omega

/-- Subtraction with the complemented carry takes a sum back to A (conflict C4). -/
theorem add8_not_add8 : (add8 (add8 a m c).res (~~~m) (!c)).res = a := by
  have ha := a.isLt
  have hm := m.isLt
  apply BitVec.eq_of_toNat_eq
  rw [toNat_add8_res, toNat_add8_res, BitVec.toNat_not]
  cases c <;> simp <;> omega

end

end Sys2Proof.Machine

namespace Sys2Proof.Proofs
open Sys2Proof.Machine

/-- Settles O22: each field of the sum by its law. -/
theorem binaryAdderLaw : Obligations.BinaryAdderLaw := by
  unfold Obligations.BinaryAdderLaw
  exact fun a m c => ⟨toNat_add8_res a m c, add8_c_iff a m c, add8_z_iff a m c, add8_n_iff a m c, add8_v_iff a m c,
    add8_v_iff_overflow a m c⟩

/-- Settles O23: the laws of the adder, at the complement of the operand. -/
theorem binarySubtractionLaw : Obligations.BinarySubtractionLaw := by
  unfold Obligations.BinarySubtractionLaw
  exact fun a m c => ⟨add8_not_res a m c, add8_not_c_iff a m c, add8_not_v_iff_overflow a m c, add8_not_add8 a m c⟩

end Sys2Proof.Proofs
end

section
/-! SUPPORT. Decimal addition and subtraction as numbers (44_logic_arith.md R170; PRESUMED, log entry 10). -/

namespace Sys2Proof.Machine

/-! ## The digits of a byte -/

theorem digitLo_eq (v : Byte) : digitLo v = (v.toNat % 16 : Nat) := rfl

theorem digitHi_eq (v : Byte) : digitHi v = (v.toNat / 16 * 16 : Nat) := by
  unfold digitHi
  omega

/-- The mask 0xF0 keeps the high digit of a byte. -/
theorem toNat_and_0xF0 (v : Byte) : (v &&& 0xF0).toNat = v.toNat / 16 * 16 := by
  have hv := v.isLt
  have hmask : (0xF0 : Byte) = BitVec.allOnes 8 <<< 4 := by decide
  rw [hmask, ← BitVec.shiftLeft_ushiftRight, BitVec.toNat_shiftLeft, BitVec.toNat_ushiftRight, Nat.shiftRight_eq_div_pow, Nat.shiftLeft_eq]
  omega

theorem digitHiSigned_eq (v : Byte) : digitHiSigned v = (v &&& 0xF0).toInt := by
  rw [toInt_byte, toNat_and_0xF0, digitHiSigned, digitHi_eq]
  split_ifs <;> omega

/-! ## The two algorithms of R170 -/

/-- Decimal addition on every two bytes, in numbers (R170). -/
theorem adcDec_law (a m : Byte) (c : Bool) (d al h s : Nat) (t : Int) (hd : d = a.toNat % 16 + m.toNat % 16 + c.toNat)
    (hal : al = if 10 ≤ d then (d + 6) % 16 + 16 else d) (hh : h = a.toNat / 16 * 16 + m.toNat / 16 * 16 + al)
    (hs : s = if 0xA0 ≤ h then h + 0x60 else h) (ht : t = (a &&& 0xF0).toInt + (m &&& 0xF0).toInt + (al : Int)) :
    (adcDec a m c).res.toNat = s % 256 ∧ ((adcDec a m c).c = true ↔ 0x100 ≤ s) ∧
      ((adcDec a m c).z = true ↔ (a.toNat + m.toNat + c.toNat) % 256 = 0) ∧
      ((adcDec a m c).n = true ↔ 128 ≤ t % 256) ∧ ((adcDec a m c).v = true ↔ t < -128 ∨ 127 < t) := by
  have hlow : digitLo a + digitLo m + (carryIn c : Int) = d := by
    rw [digitLo_eq, digitLo_eq, carryIn_eq_toNat]
    omega
  have hal' : (if (d : Int) ≥ 0x0A then ((d : Int) + 0x06) % 16 + 0x10 else (d : Int)) = al := by
    split_ifs at hal ⊢ <;> omega
  have hhigh : digitHi a + digitHi m + (al : Int) = h := by
    rw [digitHi_eq, digitHi_eq]
    omega
  have hs' : (if (h : Int) ≥ 0xA0 then (h : Int) + 0x60 else (h : Int)) = s := by
    split_ifs at hs ⊢ <;> omega
  simp only [adcDec, hlow, hal', hhigh, hs', digitHiSigned_eq, ← ht]
  refine ⟨?_, ?_, ?_, ?_, ?_⟩
  · rw [BitVec.toNat_ofInt]
    omega
  · rw [decide_eq_true_iff]
    omega
  · rw [beq_iff_eq, carryIn_eq_toNat]
  · rw [getLsbD_seven, decide_eq_true_iff, BitVec.toNat_ofInt]
    omega
  · rw [Bool.or_eq_true, decide_eq_true_iff, decide_eq_true_iff]

/-- The byte that decimal subtraction gives on every two bytes, in numbers (R170). -/
theorem sbcDec_res (a m : Byte) (c : Bool) (d al h s : Int)
    (hd : d = (a.toNat % 16 : Nat) - (m.toNat % 16 : Nat) + (c.toNat : Int) - 1)
    (hal : al = if d < 0 then (d - 6) % 16 - 16 else d)
    (hh : h = (a.toNat / 16 * 16 : Nat) - (m.toNat / 16 * 16 : Nat) + al)
    (hs : s = if h < 0 then h - 0x60 else h) : ((sbcDec a m c).res.toNat : Int) = s % 256 := by
  simp only [sbcDec, digitLo_eq, digitHi_eq, carryIn_eq_toNat, ← hd, ← hal, ← hh, ← hs, BitVec.toNat_ofInt]
  omega

/-! ## Two-digit decimal numbers -/

/-- The digit and the carry of a sum of two decimal digits and a carry. -/
theorem exists_digit_add_carry {n : Nat} (h : n < 20) : ∃ (r : Nat) (k : Bool), r < 10 ∧ n = r + 10 * k.toNat := by
  by_cases hn : n < 10
  · exact ⟨n, false, hn, rfl⟩
  · exact ⟨n - 10, true, by omega, by rw [Bool.toNat_true]; omega⟩

/-- The digit and the borrow of a difference of two decimal digits and a borrow. -/
theorem exists_digit_sub_borrow {n : Int} (hlo : -10 ≤ n) (hhi : n < 10) :
    ∃ (r : Nat) (b : Bool), r < 10 ∧ n = r - 10 * (b.toNat : Int) := by
  by_cases hn : n < 0
  · exact ⟨(n + 10).toNat, true, by omega, by rw [Bool.toNat_true]; omega⟩
  · exact ⟨n.toNat, false, by omega, by rw [Bool.toNat_false]; omega⟩

section digits
variable {a1 a0 m1 m0 : Nat} {a m : Byte} (c : Bool) (ha1 : a1 < 10) (ha0 : a0 < 10) (hm1 : m1 < 10) (hm0 : m0 < 10)
  (ha : a.toNat = 16 * a1 + a0) (hm : m.toNat = 16 * m1 + m0)
include ha1 ha0 hm1 hm0 ha hm

/-- On bytes of two decimal digits ADC adds decimal numbers, digit by digit (R170). -/
theorem adcDec_digits : ∃ r1 r0, r1 < 10 ∧ r0 < 10 ∧ (adcDec a m c).res.toNat = 16 * r1 + r0 ∧
    10 * a1 + a0 + (10 * m1 + m0) + c.toNat = 10 * r1 + r0 + 100 * (adcDec a m c).c.toNat := by
  have hc := c.toNat_le
  obtain ⟨r0, k0, hr0, hlow⟩ := exists_digit_add_carry (n := a0 + m0 + c.toNat) (by omega)
  have hk0 := k0.toNat_le
  obtain ⟨r1, k1, hr1, hhigh⟩ := exists_digit_add_carry (n := a1 + m1 + k0.toNat) (by omega)
  have hk1 := k1.toNat_le
  have hd : r0 + 10 * k0.toNat = a.toNat % 16 + m.toNat % 16 + c.toNat := by omega
  have hal : 16 * k0.toNat + r0 =
      if 10 ≤ r0 + 10 * k0.toNat then (r0 + 10 * k0.toNat + 6) % 16 + 16 else r0 + 10 * k0.toNat := by
    split_ifs <;> omega
  have hh : 16 * r1 + 160 * k1.toNat + r0 = a.toNat / 16 * 16 + m.toNat / 16 * 16 + (16 * k0.toNat + r0) := by omega
  have hs : 256 * k1.toNat + (16 * r1 + r0) =
      if 0xA0 ≤ 16 * r1 + 160 * k1.toNat + r0 then 16 * r1 + 160 * k1.toNat + r0 + 0x60
      else 16 * r1 + 160 * k1.toNat + r0 := by
    split_ifs <;> omega
  obtain ⟨hres, hcarry, -⟩ := adcDec_law a m c _ _ _ _ _ hd hal hh hs rfl
  have hk : (adcDec a m c).c = k1 := by
    rw [Bool.eq_iff_iff, hcarry, ← Bool.toNat_eq_one]
    omega
  exact ⟨r1, r0, hr1, hr0, by omega, by rw [hk]; omega⟩

/-- On bytes of two decimal digits SBC subtracts decimal numbers, digit by digit (R170). -/
theorem sbcDec_digits : ∃ r1 r0, r1 < 10 ∧ r0 < 10 ∧ (sbcDec a m c).res.toNat = 16 * r1 + r0 ∧
    10 * a1 + a0 + 100 + c.toNat = 10 * m1 + m0 + 1 + (10 * r1 + r0) + 100 * (sbcDec a m c).c.toNat := by
  have hc := c.toNat_le
  obtain ⟨r0, b0, hr0, hlow⟩ := exists_digit_sub_borrow (n := (a0 : Int) - m0 + c.toNat - 1) (by omega) (by omega)
  have hb0 := b0.toNat_le
  obtain ⟨r1, b1, hr1, hhigh⟩ := exists_digit_sub_borrow (n := (a1 : Int) - m1 - b0.toNat) (by omega) (by omega)
  have hb1 := b1.toNat_le
  have hd : (r0 : Int) - 10 * b0.toNat = (a.toNat % 16 : Nat) - (m.toNat % 16 : Nat) + (c.toNat : Int) - 1 := by omega
  have hal : (r0 : Int) - 16 * b0.toNat =
      if (r0 : Int) - 10 * b0.toNat < 0 then ((r0 : Int) - 10 * b0.toNat - 6) % 16 - 16 else (r0 : Int) - 10 * b0.toNat := by
    split_ifs <;> omega
  have hh : 16 * (r1 : Int) - 160 * b1.toNat + r0 =
      (a.toNat / 16 * 16 : Nat) - (m.toNat / 16 * 16 : Nat) + ((r0 : Int) - 16 * b0.toNat) := by omega
  have hs : 16 * (r1 : Int) + r0 - 256 * b1.toNat =
      if 16 * (r1 : Int) - 160 * b1.toNat + r0 < 0 then 16 * (r1 : Int) - 160 * b1.toNat + r0 - 0x60
      else 16 * (r1 : Int) - 160 * b1.toNat + r0 := by
    split_ifs <;> omega
  have hres := sbcDec_res a m c _ _ _ _ hd hal hh hs
  have hb : (sbcDec a m c).c = !b1 := by
    change (add8 a (~~~m) c).c = !b1
    rw [Bool.eq_iff_iff, add8_c_iff, BitVec.toNat_not, Bool.not_eq_true', ← Bool.toNat_eq_zero]
    omega
  have hnot : (!b1).toNat + b1.toNat = 1 := by cases b1 <;> rfl
  exact ⟨r1, r0, hr1, hr0, by omega, by rw [hb]; omega⟩

end digits

end Sys2Proof.Machine

namespace Sys2Proof.Proofs
open Sys2Proof.Machine

/-- Settles O24: the two algorithms on all bytes, and from them the decimal numbers; the flags of SBC are the binary ones by
definition. -/
theorem decimalAdditionAndSubtraction : Obligations.DecimalAdditionAndSubtraction := by
  unfold Obligations.DecimalAdditionAndSubtraction
  refine ⟨adcDec_law, fun a m c d al h s hd hal hh hs => ?_, fun a1 a0 m1 m0 c a m ha1 ha0 hm1 hm0 ha hm => ?_⟩
  · exact ⟨sbcDec_res a m c d al h s hd hal hh hs, rfl, rfl, rfl, rfl⟩
  · exact ⟨adcDec_digits c ha1 ha0 hm1 hm0 ha hm, sbcDec_digits c ha1 ha0 hm1 hm0 ha hm⟩

end Sys2Proof.Proofs
end

section
/-! SUPPORT. The completions of ASL, LSR, ROL and ROR on memory or A, and the two rotates bit by bit (45_shift_rotate.md R176
to R180). -/

namespace Sys2Proof.Machine

/-! ## The shared path of the four (R40, R176 to R179) -/

/-- What the shared path leaves through an address: the byte goes there, and the registers but P stay. -/
theorem modifyOperand_of_mem {f : Bool → Byte → Byte × Bool} {s : State} {a : Addr} {r : Byte} {c : Bool}
    (h : s.operandRef = .mem a) (hf : f (flagC s.p) (load s).1 = (r, c)) :
    getState (modifyOperand f s) = { getState s with p := setZN r (putC c s.p) } ∧
      (modifyOperand f s).mem = memPut s.bus s.mem a r := by
  rw [load_of_mem h, busRead_fst] at hf
  simp [modifyOperand, load_of_mem h, hf, store, h, getState]

/-- What the shared path leaves through `REG_A`: the byte goes into A, and memory stays. -/
theorem modifyOperand_of_regA {f : Bool → Byte → Byte × Bool} {s : State} {r : Byte} {c : Bool}
    (h : s.operandRef = .regA) (hf : f (flagC s.p) (load s).1 = (r, c)) :
    getState (modifyOperand f s) = { getState s with a := r, p := setZN r (putC c s.p) } ∧
      (modifyOperand f s).mem = s.mem := by
  rw [load_of_regA h] at hf
  simp [modifyOperand, load_of_regA h, hf, store, h, getState]

/-- A shift or rotate completes with its byte where the operand came from: one bus write, or A (R40). -/
theorem completes_modifyOperand {i : Instr} {s : State} {f : Bool → Byte → Byte × Bool} {r : Byte} {c : Bool}
    (hmem : memWf s.bus s.mem = true) (hw : i.wf = true)
    (hop : operationOf i.operation (atOperation i s) = (modifyOperand f (atOperation i s), 0))
    (hf : f (flagC s.p) (operandByte i s) = (r, c)) :
    Completes i s { getState s with a := storeA i s r, p := setZN r (putC c s.p) } (storeWrites i s r) 0 := by
  rw [← atOperation_p i s] at hf
  cases h : (atOperation i s).operandRef with
  | mem a =>
    obtain ⟨hregs, hput⟩ := modifyOperand_of_mem h hf
    refine completes_of_effect hw hop ?_ ?_
    · simp only [hregs, getState_atOperation, atOperation_p, storeA, h]
      rfl
    · simp only [storeWrites, h]
      exact memoryAfter_one hmem (by simp [hput])
  | regA =>
    obtain ⟨hregs, hkept⟩ := modifyOperand_of_regA h hf
    refine completes_of_effect hw hop ?_ ?_
    · simp only [hregs, getState_atOperation, atOperation_p, storeA, h]
    · simp only [storeWrites, h]
      exact memoryAfter_nil (by simp [hkept])

/-! ## The rotates bit by bit (R178, R179) -/

/-- ROL moves each bit up by one and puts the carry into bit 0 (R178). -/
theorem getLsbD_rolByte (c : Bool) (m : Byte) {k : Nat} (hk : k < 8) :
    (rolByte c m).1.getLsbD k = if k = 0 then c else m.getLsbD (k - 1) := by
  have hcarry : (if c then (0x01 : Byte) else 0x00).getLsbD k = (decide (k = 0) && c) := by
    cases c <;> simp
  rw [rolByte, BitVec.getLsbD_or, BitVec.getLsbD_shiftLeft, hcarry]
  by_cases h : k = 0 <;> simp [h, hk]

/-- ROR moves each bit down by one and puts the carry into bit 7 (R179). -/
theorem getLsbD_rorByte (c : Bool) (m : Byte) (k : Nat) :
    (rorByte c m).1.getLsbD k = if k = 7 then c else m.getLsbD (k + 1) := by
  have hmask : (0x80 : Byte) = BitVec.twoPow 8 7 := by decide
  have hcarry : (if c then (0x80 : Byte) else 0x00).getLsbD k = (decide (k = 7) && c) := by
    cases c <;> simp [hmask, eq_comm]
  rw [rorByte, BitVec.getLsbD_or, BitVec.getLsbD_ushiftRight, hcarry]
  by_cases h : k = 7 <;> simp [h, Nat.add_comm]

/-- Rotating left moves every bit back to where rotating right took it from (R180). -/
theorem rolByte_rorByte (m : Byte) (c : Bool) : rolByte (m.getLsbD 0) (rorByte c m).1 = (m, c) := by
  refine Prod.ext (BitVec.eq_of_getLsbD_eq fun k hk => ?_) (getLsbD_rorByte c m 7)
  rw [getLsbD_rolByte _ _ hk]
  cases k with
  | zero => rfl
  | succ n =>
    have hn : n ≠ 7 := by omega
    simp [getLsbD_rorByte, hn]

end Sys2Proof.Machine

namespace Sys2Proof.Proofs
open Sys2Proof.Machine

/-- Settles O28: the four share one path, each with its own byte function, whose pair is the claimed byte and carry. -/
theorem shiftsAndRotates : Obligations.ShiftsAndRotates := by
  unfold Obligations.ShiftsAndRotates
  intro o s hmem
  refine ⟨?_, ?_, ?_, ?_⟩
  · rintro r hw rfl
    exact completes_modifyOperand (f := aslByte) hmem hw rfl rfl
  · rintro r hw rfl
    exact completes_modifyOperand (f := lsrByte) hmem hw rfl rfl
  · rintro r hw rfl
    exact completes_modifyOperand (f := rolByte) hmem hw rfl rfl
  · rintro r hw rfl
    exact completes_modifyOperand (f := rorByte) hmem hw rfl rfl

/-- Settles O29: the carry out of ROR is bit 0 by definition, and ROL with it undoes ROR bit by bit. -/
theorem rotatesAreInverse : Obligations.RotatesAreInverse := by
  unfold Obligations.RotatesAreInverse
  exact fun m c => ⟨rfl, rolByte_rorByte m c⟩

end Sys2Proof.Proofs
end

section
/-! SUPPORT. The completions of the compares, BIT, and the increments and decrements (46_compare_bit_incdec.md R183 to
R193). -/

namespace Sys2Proof.Machine

/-! ## Reading the operand and writing only P (R184 to R187) -/

/-- An operation that reads its operand and writes only P completes with no bus write. -/
theorem completes_load_p {i : Instr} {s : State} {p' : Byte} {extra : Nat} (hw : i.wf = true)
    (hop : operationOf i.operation (atOperation i s) = ({ (load (atOperation i s)).2 with p := p' }, extra)) :
    Completes i s { getState s with p := p' } [] extra :=
  completes_of_effect hw hop (by simp [getState]) (memoryAfter_nil (by simp))

theorem getLsbD_putV (b : Bool) (p : Byte) (k : Nat) : (putV b p).getLsbD k = if k = 6 then b else p.getLsbD k :=
  getLsbD_putFlag (by decide) (by decide) b p k

/-- BIT writes Z, V and N, and keeps every other bit of P (R187). -/
theorem getLsbD_bitP (a m p : Byte) (k : Nat) :
    (bitP a m p).getLsbD k = if k = 1 then decide (a &&& m = 0) else if k = 6 then m.getLsbD 6
      else if k = 7 then m.getLsbD 7 else p.getLsbD k := by
  rw [bitP, getLsbD_putN, getLsbD_putV, getLsbD_putZ, beq_eq_decide]
  by_cases h7 : k = 7
  · simp [h7]
  · by_cases h6 : k = 6
    · simp [h6]
    · simp [h6, h7]

/-! ## Adding to the operand in memory (R188, R189) -/

/-- What INC and DEC leave through an address: the sum goes there, and the registers but P stay. -/
theorem addToOperand_of_mem {d : Byte} {s : State} {a : Addr} (h : s.operandRef = .mem a) :
    getState (addToOperand d s) = { getState s with p := setZN ((load s).1 + d) s.p } ∧
      (addToOperand d s).mem = memPut s.bus s.mem a ((load s).1 + d) := by
  simp [addToOperand, load_of_mem h, store, h, getState]

/-- An addition to an operand in memory completes with one bus write, of the sum, at the address the operand came from
(R40). -/
theorem completes_addToOperand {i : Instr} {s : State} {d : Byte} (hmem : memWf s.bus s.mem = true) (hw : i.wf = true)
    (hm : i.operand.mode ∉ [Mode.imp, .acc, .rel])
    (hop : operationOf i.operation (atOperation i s) = (addToOperand d (atOperation i s), 0)) :
    ∃ a, (atOperation i s).operandRef = .mem a ∧
      Completes i s { getState s with p := setZN (operandByte i s + d) s.p } [(a, operandByte i s + d)] 0 := by
  obtain ⟨a, ha⟩ := atOperation_mem_of_mode (s := s) hm
  obtain ⟨hregs, hput⟩ := addToOperand_of_mem (d := d) ha
  exact ⟨a, ha, completes_of_effect hw hop (by simp [hregs, operandByte])
    (memoryAfter_one hmem (by simp [hput, operandByte]))⟩

end Sys2Proof.Machine

namespace Sys2Proof.Proofs
open Sys2Proof.Machine

/-- Settles O30: each compare loads its operand and writes P by `compareP` of its register, which the load leaves; the extra
cycle of CMP is `penalty`. -/
theorem compareInstructions : Obligations.CompareInstructions := by
  unfold Obligations.CompareInstructions
  intro o s
  refine ⟨fun hw => ?_, fun hw => ?_, fun hw => ?_⟩
  · exact completes_load_p hw (by simp [Instr.operation, operationOf, opCmp, penalty, operandByte])
  · exact completes_load_p hw (by simp [Instr.operation, operationOf, opCpx, operandByte])
  · exact completes_load_p hw (by simp [Instr.operation, operationOf, opCpy, operandByte])

/-- Settles O31: a P with the claimed bits is `bitP` of A and the operand, which is what BIT writes. -/
theorem bitTestInstruction : Obligations.BitTestInstruction := by
  unfold Obligations.BitTestInstruction
  rintro o s m p' hw rfl hbits
  obtain rfl : p' = bitP s.a (operandByte (.bit o) s) s.p :=
    BitVec.eq_of_getLsbD_eq fun k hk => (hbits k hk).trans (getLsbD_bitP _ _ _ k).symm
  exact completes_load_p hw (by simp [Instr.operation, operationOf, opBit, operandByte])

/-- Settles O32: neither has a mode that gives `REG_A`, and both add to their operand in memory, DEC the byte -1. -/
theorem incrementAndDecrementMemory : Obligations.IncrementAndDecrementMemory := by
  unfold Obligations.IncrementAndDecrementMemory
  intro o s hmem
  refine ⟨fun hw => ?_, fun hw => ?_⟩
  · have hm := mode_of_storesOperand hw (by simp [Instr.operation, storesOperand]) (by simp [Instr.operation])
    exact completes_addToOperand hmem hw hm rfl
  · have hm := mode_of_storesOperand hw (by simp [Instr.operation, storesOperand]) (by simp [Instr.operation])
    rw [BitVec.sub_eq_add_neg]
    exact completes_addToOperand hmem hw hm rfl

/-- Settles O33: the four resolve no operand, so each counts the register of `s` up or down and leaves its memory. -/
theorem incrementAndDecrementRegisters : Obligations.IncrementAndDecrementRegisters := by
  unfold Obligations.IncrementAndDecrementRegisters
  intro s
  refine ⟨?_, ?_, ?_, ?_⟩ <;> exact completes_of_effect rfl rfl rfl (memoryAfter_nil rfl)

end Sys2Proof.Proofs
end

section
/-! SUPPORT. The completions of the flag instructions, of NOP and of the XXX opcodes (48_flags.md R216 to R222; 49_system.md
R227, R228). -/

namespace Sys2Proof.Machine

/-- An operation that writes only P completes with no bus write. -/
theorem completes_p {i : Instr} {s : State} {p' : Byte} (hw : i.wf = true)
    (hop : operationOf i.operation (atOperation i s) = ({ atOperation i s with p := p' }, 0)) :
    Completes i s { getState s with p := p' } [] 0 :=
  completes_of_effect hw hop (by simp [getState]) (memoryAfter_nil (by simp))

/-- An operation that does nothing completes with every register and every byte as they were. -/
theorem completes_unchanged {i : Instr} {s : State} (hw : i.wf = true)
    (hop : operationOf i.operation (atOperation i s) = (atOperation i s, 0)) : Completes i s (getState s) [] 0 :=
  completes_of_effect hw hop (getState_atOperation i s) (memoryAfter_nil (by simp))

end Sys2Proof.Machine

namespace Sys2Proof.Proofs
open Sys2Proof.Machine

/-- Settles O27: each writes P by `putFlag` with its own mask, which clears or sets that one bit. -/
theorem flagInstructionsWriteOneFlag : Obligations.FlagInstructionsWriteOneFlag := by
  unfold Obligations.FlagInstructionsWriteOneFlag
  intro s
  refine ⟨?_, ?_, ?_, ?_, ?_, ?_, ?_⟩ <;> exact completes_p rfl rfl

/-- Settles O39: both operations leave the state as it is; the base cycles are those of the decode table. -/
theorem noOperationInstructions : Obligations.NoOperationInstructions := by
  unfold Obligations.NoOperationInstructions
  intro op s
  refine ⟨completes_unchanged rfl rfl, rfl, fun hop => ?_⟩
  have hw : (Instr.xxx op).wf = true := List.contains_iff_mem.mpr hop
  exact ⟨completes_unchanged hw rfl, descriptor_cycles _⟩

end Sys2Proof.Proofs
end

section
/-! SUPPORT. The completions of JMP, JSR, RTS and RTI, and the return from a call (47_jump_branch.md R196 to R200). -/

namespace Sys2Proof.Machine

/-! ## Memory after several writes -/

/-- Memory after bus writes made one after the other. -/
theorem memoryAfter_foldl {s t : State} {writes : List (Addr × Byte)} (hw : memWf s.bus s.mem = true)
    (h : t.mem = writes.foldl (fun m c => memPut s.bus m c.1 c.2) s.mem) : memoryAfter writes s t := by
  intro k
  rw [h, memRead_foldl_memPut k writes hw]

/-- On `FlatRAM64K` a read is of the RAM byte, at any time (R55). -/
theorem peekAt_flat {s : State} (h : s.bus = some .flatRam) (n : Nat) (a : Addr) : peekAt n s a = ramAt s a :=
  busPeek_ramAt (s := { s with busTime := s.busTime + n }) h a

/-- On `FlatRAM64K` a byte is the last one written at its own address (R55). -/
theorem ramAt_of_memoryAfter {s t : State} {writes : List (Addr × Byte)} (hb : s.bus = some .flatRam)
    (h : memoryAfter writes s t) (a : Addr) :
    ramAt t a = writes.foldl (fun v w => if w.1 = a then w.2 else v) (ramAt s a) := by
  have hreach : ∀ x : Addr, backing s.bus x = some a.toNat ↔ x = a := by
    simp [hb, backing, BitVec.toNat_inj]
  simp only [ramAt, h a.toNat, byteAfter, hreach]

/-- Different values of SP give different stack addresses (R24). -/
theorem stackAddr_inj {p q : Byte} : stackAddr p = stackAddr q ↔ p = q := by
  rw [← BitVec.toNat_inj, toNat_stackAddr, toNat_stackAddr, ← BitVec.toNat_inj]
  omega

/-! ## What the operations leave in the six registers -/

theorem getState_opJsr (s : State) :
    getState (opJsr s).1 = { getState s with pc := target s, sp := s.sp - 2 } := by
  simp [opJsr, getState, sub_sub]

/-- RTS pops the word that the bus shows above SP, its low byte first (R199). -/
theorem getState_opRts (s : State) :
    getState (opRts s).1 = { getState s with
      sp := s.sp + 2
      pc := w16 (peekAt 1 s (stackAddr (s.sp + 2))) (peekAt 0 s (stackAddr (s.sp + 1))) + 1 } := by
  have hsp : s.sp + 1 + 1 = s.sp + 2 := BitVec.add_assoc ..
  rw [← hsp]
  rfl

/-- RTI pops P, then the word above it, its low byte first (R200). -/
theorem getState_leaveHandler (s : State) :
    getState (leaveHandler s) = { getState s with
      sp := s.sp + 3
      p := pulledP s.p (peekAt 0 s (stackAddr (s.sp + 1)))
      pc := w16 (peekAt 2 s (stackAddr (s.sp + 3))) (peekAt 1 s (stackAddr (s.sp + 2))) } := by
  have hsp2 : s.sp + 1 + 1 = s.sp + 2 := BitVec.add_assoc ..
  have hsp3 : s.sp + 2 + 1 = s.sp + 3 := BitVec.add_assoc ..
  rw [← hsp3, ← hsp2]
  rfl

end Sys2Proof.Machine

namespace Sys2Proof.Proofs
open Sys2Proof.Machine

/-- Settles O34: `target` is the address of the OperandRef, for IND the word at its pointer; JSR pushes two bytes before. -/
theorem jumpAndCall : Obligations.JumpAndCall := by
  unfold Obligations.JumpAndCall
  intro w s
  refine ⟨?_, ?_, fun hmem => ?_⟩
  · exact completes_of_effect rfl rfl rfl (memoryAfter_nil rfl)
  · rw [← indHigh_eq]
    exact completes_of_effect rfl rfl rfl (memoryAfter_nil rfl)
  · exact completes_of_effect rfl rfl (getState_opJsr (atOperation (.jsr (.abs w)) s)) (memoryAfter_foldl hmem rfl)

/-- Settles O35: an implied operand makes no transaction, so the pops read what the bus shows in `s`. -/
theorem returnInstructions : Obligations.ReturnInstructions := by
  unfold Obligations.ReturnInstructions
  intro s
  refine ⟨?_, ?_⟩
  · exact completes_of_effect rfl rfl (getState_opRts (atOperation .rts s)) (memoryAfter_nil rfl)
  · exact completes_of_effect rfl rfl (getState_leaveHandler (atOperation .rti s)) (memoryAfter_nil rfl)

/-- Settles O36: `jumpAndCall` says which two bytes JSR left above SP, and `returnInstructions` that RTS makes PC of them. -/
theorem returnUndoesCall : Obligations.ReturnUndoesCall := by
  unfold Obligations.ReturnUndoesCall
  intro w s t h hmem hb hjsr hhb hsp hhigh hlow
  obtain ⟨-, -, hcall⟩ := jumpAndCall w s
  obtain ⟨t', hjsr', hregs, hwrites, -⟩ := hcall hmem
  obtain rfl : t' = t := by simpa [hjsr'] using hjsr
  have hpushed := ramAt_of_memoryAfter hb hwrites
  have hhigh' : ramAt h (stackAddr s.sp) = hi (s.pc - 1) := by
    rw [hhigh, hpushed]
    simp [stackAddr_inj]
  have hlow' : ramAt h (stackAddr (s.sp - 1)) = lo (s.pc - 1) := by
    rw [hlow, hpushed]
    simp
  obtain ⟨⟨u, hrts, hregs', -⟩, -⟩ := returnInstructions h
  have hsp' : h.sp = s.sp - 2 := hsp.trans (congrArg Snapshot.sp hregs)
  have hsp1 : h.sp + 1 = s.sp - 1 := by
    rw [hsp']
    bv_omega
  have hsp2 : h.sp + 2 = s.sp := by
    rw [hsp']
    bv_omega
  refine ⟨u, hrts, (congrArg Snapshot.pc hregs').trans ?_, (congrArg Snapshot.sp hregs').trans hsp2⟩
  calc w16 (peekAt 1 h (stackAddr (h.sp + 2))) (peekAt 0 h (stackAddr (h.sp + 1))) + 1
      = w16 (hi (s.pc - 1)) (lo (s.pc - 1)) + 1 := by
        rw [peekAt_flat hhb, peekAt_flat hhb, hsp2, hsp1, hhigh', hlow']
    _ = s.pc := by rw [w16_hi_lo, BitVec.sub_add_cancel]

end Sys2Proof.Proofs
end

section
/-! SUPPORT. The completions of the eight branches (47_jump_branch.md R201 to R209). -/

namespace Sys2Proof.Machine

/-- PC plus the sign-extended displacement is the sum of the two numbers modulo 65536 (R127, R201). -/
theorem add_sext16 (pc : Addr) (d : Byte) : pc + sext16 d = BitVec.ofInt 16 (pc.toNat + d.toInt) := by
  rw [BitVec.ofInt_add, BitVec.ofInt_natCast, BitVec.ofNat_toNat, BitVec.setWidth_eq]
  rfl

/-- The target of a branch at whose end PC stands in `s` (R201). -/
def branchTarget (d : Byte) (s : State) : Addr := BitVec.ofInt 16 (s.pc.toNat + d.toInt)

/-- The extra cycles of a branch that is taken: one, or two across a page (R108, R201). -/
def branchExtra (d : Byte) (s : State) : Nat := if (branchTarget d s).toNat / 256 = s.pc.toNat / 256 then 1 else 2

/-- A branch, resolved, moves PC to its target when its condition holds, and does nothing else (R201). -/
theorem branch_atOperation {i : Instr} {d : Byte} (ho : i.operand = .rel d) (c : Bool) (s : State) :
    branch c (atOperation i s) =
      (if c then ({ atOperation i s with pc := branchTarget d s }, branchExtra d s) else (atOperation i s, 0)) := by
  have hoffset : (atOperation i s).branchOffset = sext16 d := by
    rw [atOperation, ho]
    rfl
  have hcross : crosses s.pc (branchTarget d s) = decide (¬(branchTarget d s).toNat / 256 = s.pc.toNat / 256) :=
    crosses_eq ..
  have htarget : s.pc + sext16 d = branchTarget d s := add_sext16 ..
  cases c
  · rfl
  · simp [branch, hoffset, htarget, hcross, branchExtra, ite_not]

/-- A branch completes by its condition alone (R201). -/
theorem completes_branch {i : Instr} {s : State} {d : Byte} {c : Bool} (hw : i.wf = true) (ho : i.operand = .rel d)
    (hop : operationOf i.operation (atOperation i s) = branch c (atOperation i s)) :
    Completes i s (if c then { getState s with pc := branchTarget d s } else getState s) []
      (if c then branchExtra d s else 0) := by
  rw [branch_atOperation ho] at hop
  cases c
  · exact completes_of_effect hw hop (getState_atOperation i s) (memoryAfter_nil (by simp))
  · exact completes_of_effect hw hop (by simp [getState]) (memoryAfter_nil (by simp))

/-- A branch on a clear flag (R201). -/
theorem completes_branch_clear {i : Instr} {s : State} {d : Byte} {f : Bool} (hw : i.wf = true) (ho : i.operand = .rel d)
    (hop : operationOf i.operation (atOperation i s) = branch (!f) (atOperation i s)) :
    Completes i s (if f then getState s else { getState s with pc := branchTarget d s }) []
      (if f then 0 else branchExtra d s) := by
  have h := completes_branch hw ho hop
  cases f <;> exact h

end Sys2Proof.Machine

namespace Sys2Proof.Proofs
open Sys2Proof.Machine

/-- Settles O37: each is `branch` on its flag, set or clear, and resolving leaves the flags of `s`. -/
theorem branchInstructions : Obligations.BranchInstructions := by
  unfold Obligations.BranchInstructions
  rintro d s _ _ _ rfl rfl rfl
  refine ⟨?_, ?_, ?_, ?_, ?_, ?_, ?_, ?_⟩
  · exact completes_branch_clear rfl rfl rfl
  · exact completes_branch rfl rfl rfl
  · exact completes_branch_clear rfl rfl rfl
  · exact completes_branch rfl rfl rfl
  · exact completes_branch_clear rfl rfl rfl
  · exact completes_branch rfl rfl rfl
  · exact completes_branch_clear rfl rfl rfl
  · exact completes_branch rfl rfl rfl

end Sys2Proof.Proofs
end

section
/-! SUPPORT. The entry that BRK, IRQ and NMI share (49_system.md R226; 60_exceptions.md R234 to R238). -/

namespace Sys2Proof.Machine

/-! ## The entry -/

/-- A read shows the bus as it was before writes that did not reach what stands behind its address (R55 to R57). -/
theorem busPeek_of_kept {s u : State} {a : Addr} (n : Nat) (hb : u.bus = s.bus) (ht : u.busTime = s.busTime + n)
    (hm : ∀ k, backing s.bus a = some k → memRead u.mem k = memRead s.mem k) : busPeek u a = peekAt n s a := by
  unfold peekAt busPeek
  simp only [hb, ht]
  cases hk : backing s.bus a with
  | none => rfl
  | some k => exact hm k hk

/-- The three pushes of an entry leave the RAM behind an address of the upper half, where the vectors are (R64). -/
theorem memRead_push_pushWord_upper (v : Byte) (w : Addr) {s : State} {a : Addr} {k : Nat}
    (hw : memWf s.bus s.mem = true) (ha : 0x8000 ≤ a.toNat) (hk : backing s.bus a = some k) :
    memRead (push v (pushWord w s)).mem k = memRead s.mem k := by
  have hw1 := memWf_memPut hw (stackAddr s.sp) (hi w)
  have hw2 := memWf_memPut hw1 (stackAddr (s.sp - 1)) (lo w)
  simp only [pushWord, push_mem, push_bus, push_sp]
  rw [memRead_memPut_stack hw2 _ _ ha hk, memRead_memPut_stack hw1 _ _ ha hk, memRead_memPut_stack hw _ _ ha hk]

/-- An entry loads PC from the vector after its three pushes; setting I does not show in the reads (R226, R234). -/
theorem enterHandler_pc (vector : Addr) (pushed : Byte) (s : State) :
    (enterHandler vector pushed s).pc = (busReadWord (push pushed (pushWord s.pc s)) vector (vector + 1)).1 := rfl

/-- The vectors stand above the stack, so an entry reads them as the bus was before its pushes (R24, R64, R237). -/
theorem enterHandler_pc_eq_vectorWord {vector : Addr} {s : State} (pushed : Byte) (hw : memWf s.bus s.mem = true)
    (hlow : 0x8000 ≤ vector.toNat) (hhigh : 0x8000 ≤ (vector + 1).toNat) :
    (enterHandler vector pushed s).pc = vectorWord vector s := by
  have hread : ∀ a : Addr, 0x8000 ≤ a.toNat → ∀ k, backing s.bus a = some k →
      memRead (push pushed (pushWord s.pc s)).mem k = memRead s.mem k :=
    fun _ ha _ hk => memRead_push_pushWord_upper pushed s.pc hw ha hk
  have hl : busPeek (push pushed (pushWord s.pc s)) vector = peekAt 3 s vector :=
    busPeek_of_kept 3 (by simp) (by simp) (hread vector hlow)
  have hh : busPeek (busRead (push pushed (pushWord s.pc s)) vector).2 (vector + 1) = peekAt 4 s (vector + 1) :=
    busPeek_of_kept 4 (by simp) (by simp) (hread (vector + 1) hhigh)
  rw [enterHandler_pc, busReadWord_fst, hl, hh, vectorWord]

/-- What an entry leaves in the six registers: the vector's word in PC, SP three lower, and I set (R226, R234). -/
theorem getState_enterHandler {vector : Addr} {s : State} (pushed : Byte) (hw : memWf s.bus s.mem = true)
    (hlow : 0x8000 ≤ vector.toNat) (hhigh : 0x8000 ≤ (vector + 1).toNat) :
    getState (enterHandler vector pushed s) =
      { getState s with pc := vectorWord vector s, sp := s.sp - 3, p := putI true s.p } := by
  simp [getState, enterHandler_pc_eq_vectorWord pushed hw hlow hhigh, sub_sub]

/-- An entry writes the three bytes that it pushes, and no other (R226, R234). -/
theorem memoryAfter_enterHandler (vector : Addr) {s : State} (pushed : Byte) (hw : memWf s.bus s.mem = true) :
    memoryAfter (entryWrites s s.pc pushed) s (enterHandler vector pushed s) :=
  memoryAfter_foldl hw (by simp [entryWrites, sub_sub])

/-- IRQ and NMI entry are the shared entry and the cleared transient state (R234, R236). -/
theorem interruptEntered_interruptEntry {vector : Addr} {s : State} (hw : memWf s.bus s.mem = true)
    (hlow : 0x8000 ≤ vector.toNat) (hhigh : 0x8000 ≤ (vector + 1).toNat) :
    InterruptEntered vector s (interruptEntry vector s) := by
  refine ⟨getState_enterHandler _ hw hlow hhigh, memoryAfter_enterHandler vector _ hw, ?_, busShape_enterHandler _ _ s,
    rfl, rfl, rfl, rfl, rfl, rfl, rfl, rfl⟩
  simp [sameOutside, interruptEntry]

end Sys2Proof.Machine

namespace Sys2Proof.Proofs
open Sys2Proof.Machine

/-- Settles O38: BRK is the shared entry from the PC past the padding byte, through the vector of IRQ. -/
theorem breakEntersTheHandler : Obligations.BreakEntersTheHandler := by
  unfold Obligations.BreakEntersTheHandler
  intro s hmem
  have hmem' : memWf (atOperation .brk s).bus (atOperation .brk s).mem = true := by simpa using hmem
  refine completes_of_effect rfl rfl ?_ ?_
  · exact getState_enterHandler (s := { atOperation .brk s with pc := s.pc + 1 }) _ hmem' (by decide) (by decide)
  · exact memoryAfter_enterHandler vectorIrq (s := { atOperation .brk s with pc := s.pc + 1 }) _ hmem'

/-- Settles O40: at a boundary `irq()` is its entry where I is clear and no change where it is set; `nmi()` is its entry. -/
theorem interruptsAtABoundary : Obligations.InterruptsAtABoundary := by
  unfold Obligations.InterruptsAtABoundary
  intro s hc hf hmem
  refine ⟨fun hclear => ?_, fun hset => ?_, ?_⟩
  · refine ⟨interruptEntry vectorIrq s, ?_, interruptEntered_interruptEntry hmem (by decide) (by decide)⟩
    rw [hostCall, callIrq_boundary hc hf, hclear]
    rfl
  · rw [hostCall, callIrq_boundary hc hf, hset]
    rfl
  · exact ⟨interruptEntry vectorNmi s, callNmi_boundary hc hf,
      interruptEntered_interruptEntry hmem (by decide) (by decide)⟩

end Sys2Proof.Proofs
end

section
/-! SUPPORT. The return from a handler after BRK, IRQ or NMI (49_system.md R226; 60_exceptions.md R242). -/

namespace Sys2Proof.Machine

/-- Both images of P that an entry pushes are P but for B and U (R34). -/
theorem pushed_and_mask (p : Byte) : pushedPsw p &&& 0xCF = p &&& 0xCF ∧ pushedPhw p &&& 0xCF = p &&& 0xCF := by
  revert p
  decide +kernel

/-- A pull takes the six bits but B and U from the byte, and those two from the live P (R34). -/
theorem pulledP_and_masks (p v : Byte) : pulledP p v &&& 0xCF = v &&& 0xCF ∧ pulledP p v &&& 0x30 = p &&& 0x30 := by
  constructor <;> simp [pulledP, BitVec.and_or_distrib_right, BitVec.and_assoc]

/-- On `FlatRAM64K` an RTI that finds SP and the three stack bytes as an entry left them resumes at the address that the entry
pushed, with SP as before the entry and P from the pushed image (R200, R242). -/
theorem rti_undoes_entry {s t h : State} {back : Addr} {image : Byte} (hb : s.bus = some .flatRam)
    (hwrites : memoryAfter (entryWrites s back image) s t) (htsp : t.sp = s.sp - 3) (hhb : h.bus = some .flatRam)
    (hsp : h.sp = t.sp)
    (hbytes : ∀ n : Byte, n = 0 ∨ n = 1 ∨ n = 2 → ramAt h (stackAddr (s.sp - n)) = ramAt t (stackAddr (s.sp - n))) :
    ∃ u, exec .rti h = .next u ∧ u.pc = back ∧ u.sp = s.sp ∧ u.p = pulledP h.p image := by
  have hpushed := ramAt_of_memoryAfter hb hwrites
  have hhigh : ramAt h (stackAddr s.sp) = hi back := by
    have hkept : ramAt h (stackAddr s.sp) = ramAt t (stackAddr s.sp) := by simpa using hbytes 0 (by simp)
    rw [hkept, hpushed]
    simp [entryWrites, stackAddr_inj]
  have hlow : ramAt h (stackAddr (s.sp - 1)) = lo back := by
    rw [hbytes 1 (by simp), hpushed]
    simp [entryWrites, stackAddr_inj]
  have himage : ramAt h (stackAddr (s.sp - 2)) = image := by
    rw [hbytes 2 (by simp), hpushed]
    simp [entryWrites]
  have hsp' : h.sp = s.sp - 3 := hsp.trans htsp
  have hsp1 : h.sp + 1 = s.sp - 2 := by
    rw [hsp']
    bv_omega
  have hsp2 : h.sp + 2 = s.sp - 1 := by
    rw [hsp']
    bv_omega
  have hsp3 : h.sp + 3 = s.sp := by
    rw [hsp']
    bv_omega
  obtain ⟨-, u, hrti, hregs, -⟩ := Proofs.returnInstructions h
  simp only [peekAt_flat hhb, hsp1, hsp2, hsp3, hhigh, hlow, himage, w16_hi_lo] at hregs
  exact ⟨u, hrti, congrArg Snapshot.pc hregs, congrArg Snapshot.sp hregs, congrArg Snapshot.p hregs⟩

/-- Each of the three entries leaves SP three lower and writes the return address and an image of P that is P but for B and U
(R34, R226, R234, R236). -/
theorem entry_writes {s t : State} {back : Addr} (hmem : memWf s.bus s.mem = true)
    (h : flagI s.p = false ∧ hostCall .irq s = .next t ∧ back = s.pc ∨ hostCall .nmi s = .next t ∧ back = s.pc ∨
      exec .brk s = .next t ∧ back = s.pc + 1) :
    ∃ image, memoryAfter (entryWrites s back image) s t ∧ t.sp = s.sp - 3 ∧ image &&& 0xCF = s.p &&& 0xCF := by
  obtain ⟨hclear, hirq, rfl⟩ | ⟨hnmi, rfl⟩ | ⟨hbrk, rfl⟩ := h
  · obtain ⟨-, ⟨hset, -⟩ | ⟨-, rfl⟩⟩ := callIrq_eq_next hirq
    · simp [hclear] at hset
    · obtain ⟨hregs, hwrites, -⟩ := interruptEntered_interruptEntry (vector := vectorIrq) hmem (by decide) (by decide)
      exact ⟨_, hwrites, congrArg Snapshot.sp hregs, (pushed_and_mask s.p).2⟩
  · obtain ⟨-, rfl⟩ := callNmi_eq_next hnmi
    obtain ⟨hregs, hwrites, -⟩ := interruptEntered_interruptEntry (vector := vectorNmi) hmem (by decide) (by decide)
    exact ⟨_, hwrites, congrArg Snapshot.sp hregs, (pushed_and_mask s.p).2⟩
  · obtain ⟨t', hbrk', hregs, hwrites, -⟩ := Proofs.breakEntersTheHandler s hmem
    obtain rfl : t' = t := by simpa [hbrk'] using hbrk
    exact ⟨_, hwrites, congrArg Snapshot.sp hregs, (pushed_and_mask s.p).1⟩

end Sys2Proof.Machine

namespace Sys2Proof.Proofs
open Sys2Proof.Machine

/-- Settles O41: whatever the entry, RTI pops the return address and the image of P that it pushed. -/
theorem returnUndoesEntry : Obligations.ReturnUndoesEntry := by
  unfold Obligations.ReturnUndoesEntry
  intro s t h back hmem hb hentry hhb hsp hbytes
  obtain ⟨image, hwrites, htsp, himage⟩ := entry_writes hmem hentry
  obtain ⟨u, hrti, hpc, husp, hp⟩ := rti_undoes_entry hb hwrites htsp hhb hsp hbytes
  obtain ⟨htaken, hkept⟩ := pulledP_and_masks h.p image
  exact ⟨u, hrti, hpc, husp, by rw [hp, htaken, himage], by rw [hp, hkept]⟩

end Sys2Proof.Proofs
end

section
/-! SUPPORT. A host write before the operand read of LDA # (70_reset_and_hazards.md R269). -/

namespace Sys2Proof.Machine

/-- On `FlatRAM64K` a read after a write at the same address returns the byte written (R55). -/
theorem busPeek_busWrite_same {s : State} (hb : s.bus = some .flatRam) (hw : memWf s.bus s.mem = true) (a : Addr)
    (v : Byte) : busPeek (busWrite s a v) a = v := by
  have hk : backing s.bus a = some a.toNat := by simp [hb, backing]
  rw [busPeek_of_backing (s := busWrite s a v) hk, busWrite_mem, memRead_memPut hw, if_pos hk]

/-- LDA leaves in A what the bus shows at the address of its OperandRef (R40, R141). -/
theorem opLda_a_of_mem {s : State} {a : Addr} (h : s.operandRef = .mem a) : (opLda s).1.a = busPeek s a := by
  simp [opLda, load_of_mem h]

/-- The last base cycle of LDA reads the byte at the address that its fetch resolved (R103, R106, R123). -/
theorem runCycle_lda_a {s t : State} {a : Addr} (hf : s.inFlight = true) (hd : s.desc = some (descriptor 0xA9))
    (hr : s.remainingCycles = 1) (href : s.operandRef = .mem a) (h : runCycle s = .next t) : t.a = busPeek s a := by
  rw [runCycle_executing hf (Nat.le_of_eq hr) hd] at h
  cases h
  exact opLda_a_of_mem (s := { s with cyclesElapsed := s.cyclesElapsed + 1, remainingCycles := 0 }) href

end Sys2Proof.Machine

namespace Sys2Proof.Proofs
open Sys2Proof.Machine

/-- Settles O49: the write leaves the instruction in its last base cycle, whose operation reads the written byte. -/
theorem hostWriteReachesPendingOperand : Obligations.HostWriteReachesPendingOperand := by
  unfold Obligations.HostWriteReachesPendingOperand
  intro s t u a v hb hmem hf hd hr href hwrite hcycle
  obtain ⟨-, ⟨⟩⟩ := whenConnected_eq_next hwrite
  obtain ⟨-, hrun⟩ := whenConnected_eq_next hcycle
  calc u.a = busPeek { busWrite s a v with reply := some (.taken (busTakes s a)) } a :=
        runCycle_lda_a (s := { busWrite s a v with reply := some (.taken (busTakes s a)) }) hf hd hr href hrun
    _ = busPeek (busWrite s a v) a := busPeek_congr a rfl rfl rfl
    _ = v := busPeek_busWrite_same hb hmem a v

end Sys2Proof.Proofs
end

section
/-! SUPPORT. The cycles of a documented instruction: its base cycles and its extra ones (40_fetch_execute.md R107 to R109). -/

namespace Sys2Proof.Machine

/-- The most extra cycles an operation can take: the penalty of the nine reads, and two for a branch across a page (R107,
R108). -/
def extraBound : Operation → Nat
  | .lda | .ldx | .ldy | .and | .ora | .eor | .adc | .sbc | .cmp => 1
  | .bcc | .bcs | .beq | .bmi | .bne | .bpl | .bvc | .bvs => 2
  | _ => 0

theorem penalty_le_one (s : State) : penalty s ≤ 1 := by
  unfold penalty
  split <;> decide

theorem branch_extra_le_two (c : Bool) (s : State) : (branch c s).2 ≤ 2 := by
  obtain ⟨-, h⟩ | ⟨-, h⟩ := branch_cases c s
  · simp [h]
  · rw [h]
    dsimp only
    split <;> decide

theorem operationOf_extra_le (o : Operation) (s : State) : (operationOf o s).2 ≤ extraBound o := by
  cases o
  case lda | ldx | ldy | and | ora | eor | adc | sbc | cmp => exact penalty_le_one _
  case bcc | bcs | beq | bmi | bne | bpl | bvc | bvs => exact branch_extra_le_two _ s
  all_goals exact Nat.le_refl 0

/-- No documented entry of the decode table takes more than 7 cycles, its extra ones counted (R84, R107, R108). -/
theorem baseCycles_add_extraBound_le (op : Byte) (h : (descriptor op).operation ≠ .xxx) :
    (descriptor op).baseCycles + extraBound (descriptor op).operation ≤ 7 := by
  revert op
  decide +kernel

/-- `exec` of an instruction takes the base cycles of its opcode and the extra cycles of its operation (R104, R106). -/
theorem exec_cycles {i : Instr} {s t : State} (h : exec i s = .next t) :
    ∃ op, (descriptor op).operation = i.operation ∧ t.cyclesElapsed + t.remainingCycles =
      s.cyclesElapsed + (descriptor op).baseCycles + (operationOf i.operation (atOperation i s)).2 := by
  obtain ⟨hw, rfl⟩ := exec_eq_next h
  obtain ⟨op, hop, hoperation, -⟩ := opcode_law i hw
  obtain ⟨-, -, -, -, hclock, hcycles, -⟩ := operationOf_frame i.operation (atOperation i s)
  exact ⟨op, hoperation, by simp [hclock, hcycles, baseCyclesOf, hop]⟩

/-- `exec` of a documented instruction, or of 0xEB, takes 2 to 7 cycles (R270). -/
theorem exec_cycles_bounds {i : Instr} {s t : State} (h : exec i s = .next t) (hi : i.operation ≠ .xxx) :
    s.cyclesElapsed + 2 ≤ t.cyclesElapsed + t.remainingCycles ∧
      t.cyclesElapsed + t.remainingCycles ≤ s.cyclesElapsed + 7 := by
  obtain ⟨op, hop, hcycles⟩ := exec_cycles h
  have hbase := (descriptor_cycles op).1
  have hmost := baseCycles_add_extraBound_le op (hop ▸ hi)
  rw [hop] at hmost
  have hextra := operationOf_extra_le i.operation (atOperation i s)
  omega

end Sys2Proof.Machine

namespace Sys2Proof.Proofs
open Sys2Proof.Machine

/-- Settles O60: the bounds of `exec` by the decode table; the step is `exec` of the instruction that the bytes at the PC decode
to, after the cycles left over. -/
theorem documentedInstructionCycles : Obligations.DocumentedInstructionCycles := by
  unfold Obligations.DocumentedInstructionCycles
  refine ⟨fun i s t h hi => ?_, fun s hc hcalls hf hop => ?_⟩
  · have hbounds := exec_cycles_bounds h hi
    omega
  · obtain ⟨-, t, hexec, hstep⟩ := stepRunsTheDecodedInstruction s _ _ hc hcalls hf (decode_three_bytes _ _ _ [])
    have hbounds := exec_cycles_bounds hexec (by rwa [instrOf_operation])
    simp only [afterFetch] at hbounds
    have hclock : t.cyclesElapsed + t.remainingCycles =
        s.cyclesElapsed + (t.cyclesElapsed + t.remainingCycles - s.cyclesElapsed) := by omega
    exact ⟨_, _, hstep, rfl, hclock, by omega, by omega⟩

end Sys2Proof.Proofs
end
